-- ==== Sys2Proof/Word.lean ====
section
/-! DEFINITION. The machine's two word types.

00_scope.md R5: `BYTE_BITS` = 8, `WORD_BITS` = 16 (also `OFFSET_BITS`, the width of IP and of an effective address). -/

namespace Sys2Proof

/-- A byte: 8 bits (00_scope.md R5 `BYTE_BITS`). -/
abbrev Byte := BitVec 8

/-- A word: 16 bits (00_scope.md R5 `WORD_BITS`, `OFFSET_BITS`). -/
abbrev Word := BitVec 16

end Sys2Proof
end

