-- ==== Sys2Proof/Config.lean ====
section
/-! DEFINITION. What an implementation fixes: the parameters of 00_scope.md R5, with the values of its column
"this hardware", and the free values of 00_scope.md R12 (`any`). The one parameter R5 leaves open, `EXTERNAL_AGENTS`, is no
constant: it is an argument of every run, the field `writes` of the host's records (Machine/State.lean, log 13). -/

namespace Sys2Proof.Config

/-- `WORD_BITS`: width of a word operand (00 R5). `Word` is the type of this width (Sys2Proof.Laws.Config). -/
def wordBits : Nat := 16

/-- `BYTE_BITS`: width of a byte operand (00 R5). `Byte` is the type of this width (Sys2Proof.Laws.Config). -/
def byteBits : Nat := 8

/-- `N_REG16`: word general registers, the constructors of `RegField` (00 R5, 10 R20). -/
def nReg16 : Nat := 8

/-- `N_REG8`: byte general registers, the same eight codes (00 R5, 10 R21). -/
def nReg8 : Nat := 8

/-- `N_SREG`: segment registers, the constructors of `SReg` (00 R5, 10 R23). -/
def nSreg : Nat := 4

/-- `FLAGS_BITS`: width of FLAGS (00 R5, 10 R25). -/
def flagsBits : Nat := 16

/-- `OFFSET_BITS`: width of an offset, of IP and of an effective address (00 R5). -/
def offsetBits : Nat := 16

/-- `IO_PORTS`: byte ports of the I/O space (00 R5, 20 R48, 92 D25). -/
def ioPorts : Nat := 65536

/-- `N_VECTORS`: entries of the interrupt pointer table, one for each value of a type byte (00 R5, 60 R232). -/
def nVectors : Nat := 256

/-- `PHYS_BITS`: width of a physical address (00 R5, 92 D2). -/
def physBits : Nat := 20

/-- The number of bytes of memory, 2^`PHYS_BITS` (20_memory.md R40). -/
def memBytes : Nat := 2 ^ physBits

/-- `SEG_SHIFT`: left shift of a segment value in address formation (00 R5, 92 D2). -/
def segShift : Nat := 4

/-- `VECTOR_BASE`: physical address of the interrupt pointer table (00 R5, 60 R232). -/
def vectorBase : Nat := 0

/-- `VECTOR_ENTRY_BYTES`: bytes of one entry of the interrupt pointer table (00 R5, 60 R232). -/
def vectorEntryBytes : Nat := 4

/-- `RESET_CS` (00 R5, 70 R260). -/
def resetCs : Word := 0xFFFF

/-- `RESET_IP` (00 R5, 70 R260). -/
def resetIp : Word := 0x0000

/-- `FLAGS_X_READ`: what the seven X bits of FLAGS read as (00 R5, 10 R27, 92 D9). -/
def flagsXRead : Word := 0xF002

/-- `SHIFT_COUNT_MASK`: mask applied to CL in shifts and rotates (00 R5, 42 R140, 92 D12). -/
def shiftCountMask : Byte := 0xFF

/-- `PUSH_SP_NEW`: PUSH SP stores the already decremented SP (00 R5, 40 R98, 92 D16). -/
def pushSpNew : Bool := true

/-- `DIVERR_RETURN_NEXT`: the divide error saves the offset after the divide (00 R5, 60 R231, 92 D14). -/
def diverrReturnNext : Bool := true

/-- `IDIV_SYMMETRIC_RANGE`: IDIV raises the divide error for a quotient of -128 / -32768 (00 R5, 41 R118, 92 D15). -/
def idivSymmetricRange : Bool := true

/-- `PREFETCH_QUEUE_BYTES`: instruction bytes the processor may have read ahead (00 R5, 20 R54, 92 D20). -/
def prefetchQueueBytes : Nat := 6

/-- `ADMIT_CS_LOAD`: POP CS and MOV CS, r/m are given a meaning (00 R5, 92 D7). -/
def admitCsLoad : Bool := false

/-- `AAM_AAD_ANY_BASE`: AAM/AAD accept a second byte other than 0x0A (00 R5, 92 D8). -/
def aamAadAnyBase : Bool := false

/-- The longest instruction without prefixes, in bytes (30_encoding.md R76). -/
def maxInstrBytes : Nat := 6

/-- Bytes of one code segment: the most prefix bytes that can stand before an opcode (log 9). -/
def codeSegmentBytes : Nat := 2 ^ offsetBits

/-- The free values: what the spec calls `any` (00 R12, 92 D10). The n-th draw of a run gives `freeWord n`; it has
no body, so nothing can be proved of it. DESIGN CHOICE of the form, see log 5. Safe. -/
opaque freeWord : Nat → BitVec 16

end Sys2Proof.Config
end

