-- ==== Sys2Proof/Syntax.lean ====
section
/-! DEFINITION. The instructions as terms: one constructor of `Instr` per row of spec/opcode_table.json (30_encoding.md
R85), three of them prefixes. The fields of a constructor are the fields of the row's encoding, in the names of
30_encoding.md R61 to R74. -/

namespace Sys2Proof

/-- The w field: byte (w = 0) or word (w = 1) instruction (30 R61). -/
inductive Width where
  | byte
  | word
  deriving DecidableEq, Repr

/-- The operand width n in bits (00 R7). -/
@[reducible] def Width.bits : Width → Nat
  | .byte => 8
  | .word => 16

/-- A row of the REG table (10_state.md R20, R21): the 3-bit code 000 to 111 names the word register when w = 1 and the
byte register when w = 0. The constructor's name holds both. -/
inductive RegField where
  | axAl | cxCl | dxDl | bxBl | spAh | bpCh | siDh | diBh
  deriving DecidableEq, Repr

/-- A segment register, codes 00 to 11 (10_state.md R23). -/
inductive SReg where
  | es | cs | ss | ds
  deriving DecidableEq, Repr

/-- The register part of an effective address, r/m codes 000 to 111 (30 R63). -/
inductive EaBase where
  | bxSi | bxDi | bpSi | bpDi | si | di | bp | bx
  deriving DecidableEq, Repr

/-- A memory operand as mod, r/m and the displacement bytes give it (30 R63, R64). -/
inductive MemOp where
  /-- mod = 00, r/m not 110: no displacement. -/
  | noDisp (base : EaBase)
  /-- mod = 00, r/m = 110: the 16-bit offset follows, no register is added. -/
  | direct (addr : Word)
  /-- mod = 01: one displacement byte, sign-extended. -/
  | disp8 (base : EaBase) (disp : Byte)
  /-- mod = 10: two displacement bytes. -/
  | disp16 (base : EaBase) (disp : Word)
  deriving DecidableEq, Repr

/-- An r/m operand: a register when mod = 11, else memory (30 R62). -/
inductive RM where
  | reg (r : RegField)
  | mem (m : MemOp)
  deriving DecidableEq, Repr

/-- The d field (30 R61): `fromReg` is d = 0 (r/m is the destination), `toReg` is d = 1 (reg is the destination). -/
inductive Dir where
  | fromReg
  | toReg
  deriving DecidableEq, Repr

/-- The v field of shifts and rotates: count 1 (v = 0) or count in CL (v = 1) (30 R61). -/
inductive CountSel where
  | one
  | cl
  deriving DecidableEq, Repr

/-- "data, data if w = 1": an immediate of the operation's width (30 R67). -/
inductive Imm where
  | byte (v : Byte)
  | word (v : Word)
  deriving DecidableEq, Repr

/-- The w bit an immediate belongs to. -/
@[reducible] def Imm.width : Imm → Width
  | .byte _ => .byte
  | .word _ => .word

/-- "data, data if s:w = 01": the immediate of first bytes 80, 81, 82, 83 (30 R68). -/
inductive SwImm where
  | s0w0 (v : Byte)
  | s0w1 (v : Word)
  | s1w0 (v : Byte)
  | s1w1 (v : Byte)
  deriving DecidableEq, Repr

/-- The w bit of an s:w pair. -/
@[reducible] def SwImm.width : SwImm → Width
  | .s0w0 _ => .byte
  | .s0w1 _ => .word
  | .s1w0 _ => .byte
  | .s1w1 _ => .word

/-- The instructions: one constructor per row of spec/opcode_table.json, in the table's order. -/
inductive Instr where
  -- data transfer (40_data_transfer.md)
  | movRmReg (d : Dir) (w : Width) (reg : RegField) (rm : RM)
  | movRmImm (rm : RM) (imm : Imm)
  | movRegImm (reg : RegField) (imm : Imm)
  | movAccMem (w : Width) (addr : Word)
  | movMemAcc (w : Width) (addr : Word)
  | movSregRm (sr : SReg) (rm : RM)
  | movRmSreg (sr : SReg) (rm : RM)
  | pushRm (rm : RM)
  | pushReg (reg : RegField)
  | pushSreg (sr : SReg)
  | popRm (rm : RM)
  | popReg (reg : RegField)
  | popSreg (sr : SReg)
  | xchgRmReg (w : Width) (reg : RegField) (rm : RM)
  | xchgAccReg (reg : RegField)
  | inFixed (w : Width) (port : Byte)
  | inVariable (w : Width)
  | outFixed (w : Width) (port : Byte)
  | outVariable (w : Width)
  | xlat
  | lea (reg : RegField) (m : MemOp)
  | lds (reg : RegField) (m : MemOp)
  | les (reg : RegField) (m : MemOp)
  | lahf
  | sahf
  | pushf
  | popf
  -- arithmetic (41_arithmetic.md)
  | addRmReg (d : Dir) (w : Width) (reg : RegField) (rm : RM)
  | addRmImm (rm : RM) (imm : SwImm)
  | addAccImm (imm : Imm)
  | adcRmReg (d : Dir) (w : Width) (reg : RegField) (rm : RM)
  | adcRmImm (rm : RM) (imm : SwImm)
  | adcAccImm (imm : Imm)
  | incRm (w : Width) (rm : RM)
  | incReg (reg : RegField)
  | aaa
  | daa
  | subRmReg (d : Dir) (w : Width) (reg : RegField) (rm : RM)
  | subRmImm (rm : RM) (imm : SwImm)
  | subAccImm (imm : Imm)
  | sbbRmReg (d : Dir) (w : Width) (reg : RegField) (rm : RM)
  | sbbRmImm (rm : RM) (imm : SwImm)
  | sbbAccImm (imm : Imm)
  | decRm (w : Width) (rm : RM)
  | decReg (reg : RegField)
  | neg (w : Width) (rm : RM)
  | cmpRmReg (d : Dir) (w : Width) (reg : RegField) (rm : RM)
  | cmpRmImm (rm : RM) (imm : SwImm)
  | cmpAccImm (imm : Imm)
  | aas
  | das
  | mul (w : Width) (rm : RM)
  | imul (w : Width) (rm : RM)
  | aam (base : Byte)
  | div (w : Width) (rm : RM)
  | idiv (w : Width) (rm : RM)
  | aad (base : Byte)
  | cbw
  | cwd
  -- logic (42_logic.md)
  | not (w : Width) (rm : RM)
  | shl (v : CountSel) (w : Width) (rm : RM)
  | shr (v : CountSel) (w : Width) (rm : RM)
  | sar (v : CountSel) (w : Width) (rm : RM)
  | rol (v : CountSel) (w : Width) (rm : RM)
  | ror (v : CountSel) (w : Width) (rm : RM)
  | rcl (v : CountSel) (w : Width) (rm : RM)
  | rcr (v : CountSel) (w : Width) (rm : RM)
  | andRmReg (d : Dir) (w : Width) (reg : RegField) (rm : RM)
  | andRmImm (rm : RM) (imm : Imm)
  | andAccImm (imm : Imm)
  | testRmReg (w : Width) (reg : RegField) (rm : RM)
  | testRmImm (rm : RM) (imm : Imm)
  | testAccImm (imm : Imm)
  | orRmReg (d : Dir) (w : Width) (reg : RegField) (rm : RM)
  | orRmImm (rm : RM) (imm : Imm)
  | orAccImm (imm : Imm)
  | xorRmReg (d : Dir) (w : Width) (reg : RegField) (rm : RM)
  | xorRmImm (rm : RM) (imm : Imm)
  | xorAccImm (imm : Imm)
  -- string manipulation (43_string.md)
  | rep (z : Bool)
  | movs (w : Width)
  | cmps (w : Width)
  | scas (w : Width)
  | lods (w : Width)
  | stos (w : Width)
  -- control transfer (44_control_transfer.md)
  | callRel (disp : Word)
  | callRm (rm : RM)
  | callFar (off seg : Word)
  | callFarMem (m : MemOp)
  | jmpRel (disp : Word)
  | jmpShort (disp : Byte)
  | jmpRm (rm : RM)
  | jmpFar (off seg : Word)
  | jmpFarMem (m : MemOp)
  | ret
  | retImm (data : Word)
  | retFar
  | retFarImm (data : Word)
  | je (disp : Byte)
  | jl (disp : Byte)
  | jle (disp : Byte)
  | jb (disp : Byte)
  | jbe (disp : Byte)
  | jp (disp : Byte)
  | jo (disp : Byte)
  | js (disp : Byte)
  | jne (disp : Byte)
  | jnl (disp : Byte)
  | jnle (disp : Byte)
  | jnb (disp : Byte)
  | jnbe (disp : Byte)
  | jnp (disp : Byte)
  | jno (disp : Byte)
  | jns (disp : Byte)
  | loop (disp : Byte)
  | loopz (disp : Byte)
  | loopnz (disp : Byte)
  | jcxz (disp : Byte)
  | int (type : Byte)
  | int3
  | into
  | iret
  -- processor control (45_processor_control.md)
  | clc
  | cmc
  | stc
  | cld
  | std
  | cli
  | sti
  | hlt
  | wait
  | esc (x0 x1 : BitVec 3) (rm : RM)
  | lock
  | seg (sr : SReg)
  deriving DecidableEq, Repr

end Sys2Proof
end

