-- ==== Sys2Proof/WellFormed.lean ====
section
/-! DEFINITION. Which instruction terms an encoding can stand for. Most of the shape is in the types of
Sys2Proof/Syntax.lean (a memory operand for LEA, an immediate of the operation's width); what is left is checked here. -/

namespace Sys2Proof

/-- mod = 00 with r/m = 110 is the direct address, not (BP) without displacement (30_encoding.md R63, R64). -/
def MemOp.wellFormed : MemOp → Bool
  | .noDisp base => base != .bp
  | .direct _ => true
  | .disp8 _ _ => true
  | .disp16 _ _ => true

/-- An r/m operand is well formed when its memory operand is. -/
def RM.wellFormed : RM → Bool
  | .reg _ => true
  | .mem m => m.wellFormed

/-- The second byte of AAM and AAD is 0x0A unless `AAM_AAD_ANY_BASE` (30 R79 item 6, 92 D8). -/
def baseWellFormed (base : Byte) : Bool :=
  base == 0x0A || Config.aamAadAnyBase

/-- The instruction is one that some encoding stands for (30_encoding.md R62 to R74, R79). -/
def Instr.wellFormed : Instr → Bool
  | .movRmReg _ _ _ rm => rm.wellFormed
  | .movRmImm rm _ => rm.wellFormed
  | .movRegImm _ _ => true
  | .movAccMem _ _ => true
  | .movMemAcc _ _ => true
  | .movSregRm _ rm => rm.wellFormed
  | .movRmSreg _ rm => rm.wellFormed
  | .pushRm rm => rm.wellFormed
  | .pushReg _ => true
  | .pushSreg _ => true
  | .popRm rm => rm.wellFormed
  | .popReg _ => true
  | .popSreg _ => true
  | .xchgRmReg _ _ rm => rm.wellFormed
  | .xchgAccReg _ => true
  | .inFixed _ _ => true
  | .inVariable _ => true
  | .outFixed _ _ => true
  | .outVariable _ => true
  | .xlat => true
  | .lea _ m => m.wellFormed
  | .lds _ m => m.wellFormed
  | .les _ m => m.wellFormed
  | .lahf => true
  | .sahf => true
  | .pushf => true
  | .popf => true
  | .addRmReg _ _ _ rm => rm.wellFormed
  | .addRmImm rm _ => rm.wellFormed
  | .addAccImm _ => true
  | .adcRmReg _ _ _ rm => rm.wellFormed
  | .adcRmImm rm _ => rm.wellFormed
  | .adcAccImm _ => true
  | .incRm _ rm => rm.wellFormed
  | .incReg _ => true
  | .aaa => true
  | .daa => true
  | .subRmReg _ _ _ rm => rm.wellFormed
  | .subRmImm rm _ => rm.wellFormed
  | .subAccImm _ => true
  | .sbbRmReg _ _ _ rm => rm.wellFormed
  | .sbbRmImm rm _ => rm.wellFormed
  | .sbbAccImm _ => true
  | .decRm _ rm => rm.wellFormed
  | .decReg _ => true
  | .neg _ rm => rm.wellFormed
  | .cmpRmReg _ _ _ rm => rm.wellFormed
  | .cmpRmImm rm _ => rm.wellFormed
  | .cmpAccImm _ => true
  | .aas => true
  | .das => true
  | .mul _ rm => rm.wellFormed
  | .imul _ rm => rm.wellFormed
  | .aam base => baseWellFormed base
  | .div _ rm => rm.wellFormed
  | .idiv _ rm => rm.wellFormed
  | .aad base => baseWellFormed base
  | .cbw => true
  | .cwd => true
  | .not _ rm => rm.wellFormed
  | .shl _ _ rm => rm.wellFormed
  | .shr _ _ rm => rm.wellFormed
  | .sar _ _ rm => rm.wellFormed
  | .rol _ _ rm => rm.wellFormed
  | .ror _ _ rm => rm.wellFormed
  | .rcl _ _ rm => rm.wellFormed
  | .rcr _ _ rm => rm.wellFormed
  | .andRmReg _ _ _ rm => rm.wellFormed
  | .andRmImm rm _ => rm.wellFormed
  | .andAccImm _ => true
  | .testRmReg _ _ rm => rm.wellFormed
  | .testRmImm rm _ => rm.wellFormed
  | .testAccImm _ => true
  | .orRmReg _ _ _ rm => rm.wellFormed
  | .orRmImm rm _ => rm.wellFormed
  | .orAccImm _ => true
  | .xorRmReg _ _ _ rm => rm.wellFormed
  | .xorRmImm rm _ => rm.wellFormed
  | .xorAccImm _ => true
  | .rep _ => true
  | .movs _ => true
  | .cmps _ => true
  | .scas _ => true
  | .lods _ => true
  | .stos _ => true
  | .callRel _ => true
  | .callRm rm => rm.wellFormed
  | .callFar _ _ => true
  | .callFarMem m => m.wellFormed
  | .jmpRel _ => true
  | .jmpShort _ => true
  | .jmpRm rm => rm.wellFormed
  | .jmpFar _ _ => true
  | .jmpFarMem m => m.wellFormed
  | .ret => true
  | .retImm _ => true
  | .retFar => true
  | .retFarImm _ => true
  | .je _ => true
  | .jl _ => true
  | .jle _ => true
  | .jb _ => true
  | .jbe _ => true
  | .jp _ => true
  | .jo _ => true
  | .js _ => true
  | .jne _ => true
  | .jnl _ => true
  | .jnle _ => true
  | .jnb _ => true
  | .jnbe _ => true
  | .jnp _ => true
  | .jno _ => true
  | .jns _ => true
  | .loop _ => true
  | .loopz _ => true
  | .loopnz _ => true
  | .jcxz _ => true
  | .int _ => true
  | .int3 => true
  | .into => true
  | .iret => true
  | .clc => true
  | .cmc => true
  | .stc => true
  | .cld => true
  | .std => true
  | .cli => true
  | .sti => true
  | .hlt => true
  | .wait => true
  | .esc _ _ rm => rm.wellFormed
  | .lock => true
  | .seg _ => true

end Sys2Proof
end

