-- ==== Sys2Proof/Decode.lean ====
section
/-! DEFINITION. Decoding, total on any bytes, and the encoder, both written from the encoding column of
spec/opcode_table.json (30_encoding.md R60 to R79). The decoder is a table of rows, one per row of the opcode table,
each with the mask and match of its first byte and, where it has one, of its second byte (30 R85). -/

namespace Sys2Proof

/-! ### Fields -/

/-- The 3-bit code of a row of the REG table (10_state.md R20, R21). -/
def RegField.code : RegField → BitVec 3
  | .axAl => 0b000#3
  | .cxCl => 0b001#3
  | .dxDl => 0b010#3
  | .bxBl => 0b011#3
  | .spAh => 0b100#3
  | .bpCh => 0b101#3
  | .siDh => 0b110#3
  | .diBh => 0b111#3

/-- The row of the REG table with a code (10_state.md R20, R21). -/
def RegField.ofCode (b : BitVec 3) : RegField :=
  match b.toNat with
  | 0 => .axAl
  | 1 => .cxCl
  | 2 => .dxDl
  | 3 => .bxBl
  | 4 => .spAh
  | 5 => .bpCh
  | 6 => .siDh
  | _ => .diBh

/-- The 2-bit code of a segment register (10_state.md R23, 30 R66). -/
def SReg.code : SReg → BitVec 2
  | .es => 0b00#2
  | .cs => 0b01#2
  | .ss => 0b10#2
  | .ds => 0b11#2

/-- The segment register with a code (10_state.md R23, 30 R66). -/
def SReg.ofCode (b : BitVec 2) : SReg :=
  match b.toNat with
  | 0 => .es
  | 1 => .cs
  | 2 => .ss
  | _ => .ds

/-- The r/m code of an effective-address base (30 R63). -/
def EaBase.code : EaBase → BitVec 3
  | .bxSi => 0b000#3
  | .bxDi => 0b001#3
  | .bpSi => 0b010#3
  | .bpDi => 0b011#3
  | .si => 0b100#3
  | .di => 0b101#3
  | .bp => 0b110#3
  | .bx => 0b111#3

/-- The effective-address base with an r/m code (30 R63). -/
def EaBase.ofCode (b : BitVec 3) : EaBase :=
  match b.toNat with
  | 0 => .bxSi
  | 1 => .bxDi
  | 2 => .bpSi
  | 3 => .bpDi
  | 4 => .si
  | 5 => .di
  | 6 => .bp
  | _ => .bx

/-- The w bit (30 R61). -/
def Width.bit : Width → BitVec 1
  | .byte => 0#1
  | .word => 1#1

/-- The width a w bit names (30 R61). -/
def Width.ofBit (b : Bool) : Width :=
  match b with
  | false => .byte
  | true => .word

/-- The d bit (30 R61). -/
def Dir.bit : Dir → BitVec 1
  | .fromReg => 0#1
  | .toReg => 1#1

/-- The direction a d bit names (30 R61). -/
def Dir.ofBit (b : Bool) : Dir :=
  match b with
  | false => .fromReg
  | true => .toReg

/-- The v bit (30 R61). -/
def CountSel.bit : CountSel → BitVec 1
  | .one => 0#1
  | .cl => 1#1

/-- The count selector a v bit names (30 R61). -/
def CountSel.ofBit (b : Bool) : CountSel :=
  match b with
  | false => .one
  | true => .cl

/-- Bits 7-6 of a second byte (30 R62). -/
def modField (m : Byte) : BitVec 2 := m.extractLsb' 6 2

/-- Bits 5-3 of a second byte, also of a first byte that carries a field there (30 R62). -/
def regBits (m : Byte) : BitVec 3 := m.extractLsb' 3 3

/-- Bits 2-0 of a byte: r/m of a second byte, reg of a one-byte row (30 R62, R65). -/
def lowBits (m : Byte) : BitVec 3 := m.extractLsb' 0 3

/-- The segment field, bits 4-3 of the byte that carries it (30 R66). -/
def segField (m : Byte) : SReg := SReg.ofCode (m.extractLsb' 3 2)

/-! ### Reading the bytes that follow -/

/-- Why bytes are no instruction. Every case is one that the spec says a model must refuse (30 R79), so each is safe. -/
inductive DecodeError where
  /-- Fewer bytes than the instruction needs; the fetch always offers enough. -/
  | truncated
  /-- A first byte with no row (30 R79 item 1). -/
  | unassigned (first : Byte)
  /-- A first byte whose rows all need another second byte (30 R79 items 2 to 5). -/
  | unassignedSecond (first second : Byte)
  /-- AAM or AAD with a second byte other than 0x0A (30 R79 item 6). -/
  | adjustBase (second : Byte)
  /-- mod = 11 where the operand must be memory (30 R79 item 7). -/
  | registerOperand (first second : Byte)
  deriving DecidableEq, Repr

/-- What a decoder answers: a value and the bytes after it, or why there is none. -/
abbrev Parsed (α : Type) := Except DecodeError (α × List Byte)

/-- One byte, then `k` (Fetch8 of 30 R60). -/
def withByte {α : Type} (bs : List Byte) (k : Byte → List Byte → Parsed α) : Parsed α :=
  match bs with
  | b :: rest => k b rest
  | [] => .error .truncated

/-- Two bytes, the low one first, then `k` (Fetch16 of 30 R60). -/
def withWord {α : Type} (bs : List Byte) (k : Word → List Byte → Parsed α) : Parsed α :=
  match bs with
  | lo :: hi :: rest => k (hi ++ lo) rest
  | _ => .error .truncated

/-- "data, data if w = 1" (30 R67). -/
def withImm (w : Width) (bs : List Byte) (k : Imm → List Byte → Parsed Instr) : Parsed Instr :=
  match w with
  | .byte => withByte bs fun v => k (.byte v)
  | .word => withWord bs fun v => k (.word v)

/-- "data, data if s:w = 01" (30 R68). -/
def withSwImm (s w : Bool) (bs : List Byte) (k : SwImm → List Byte → Parsed Instr) : Parsed Instr :=
  match s, w with
  | false, false => withByte bs fun v => k (.s0w0 v)
  | false, true => withWord bs fun v => k (.s0w1 v)
  | true, false => withByte bs fun v => k (.s1w0 v)
  | true, true => withByte bs fun v => k (.s1w1 v)

/-- The r/m operand of the second byte `m`, its displacement bytes taken from `bs` (30 R62 to R64). -/
def withRm (m : Byte) (bs : List Byte) (k : RM → List Byte → Parsed Instr) : Parsed Instr :=
  match (modField m).toNat with
  | 0 =>
    match EaBase.ofCode (lowBits m) with
    | .bp => withWord bs fun a => k (.mem (.direct a))
    | base => k (.mem (.noDisp base)) bs
  | 1 => withByte bs fun d => k (.mem (.disp8 (EaBase.ofCode (lowBits m)) d))
  | 2 => withWord bs fun d => k (.mem (.disp16 (EaBase.ofCode (lowBits m)) d))
  | _ => k (.reg (RegField.ofCode (lowBits m))) bs

/-- An r/m operand that must be memory (30 R79 item 7). -/
def withMem (b m : Byte) (bs : List Byte) (k : MemOp → List Byte → Parsed Instr) : Parsed Instr :=
  withRm m bs fun rm rest =>
    match rm with
    | .mem mem => k mem rest
    | .reg _ => .error (.registerOperand b m)

/-! ### The table -/

/-- A row of the opcode table: mask and match of the first byte; mask and match of the second byte where the row has one
(30 R85); and what the row reads from the first byte, the second byte (0 where it has none) and the bytes after them. -/
structure Row where
  mask : Byte
  val : Byte
  second : Option (Byte × Byte)
  parse : Byte → Byte → List Byte → Parsed Instr

/-- The row's patterns fit the bytes: `(bytes AND mask) = match` (30 R85). -/
def Row.fits (r : Row) (b m : Byte) : Bool :=
  (b &&& r.mask) == r.val &&
    match r.second with
    | none => true
    | some (mask2, val2) => (m &&& mask2) == val2

/-- The whole instruction has been read. -/
def done (i : Instr) (bs : List Byte) : Parsed Instr := .ok (i, bs)

/-- A one-byte row with no field. -/
def rowPlain (val : Byte) (i : Instr) : Row :=
  ⟨0xFF, val, none, fun _ _ bs => done i bs⟩

/-- A one-byte row with w in bit 0. -/
def rowW (val : Byte) (f : Width → Instr) : Row :=
  ⟨0xFE, val, none, fun b _ bs => done (f (.ofBit (b.getLsbD 0))) bs⟩

/-- A one-byte row with a 3-bit register in bits 2-0 (30 R65). -/
def rowReg (val : Byte) (f : RegField → Instr) : Row :=
  ⟨0xF8, val, none, fun b _ bs => done (f (.ofCode (lowBits b))) bs⟩

/-- A one-byte row with a 2-bit segment register in bits 4-3 (30 R66). -/
def rowSreg (val : Byte) (f : SReg → Instr) : Row :=
  ⟨0xE7, val, none, fun b _ bs => done (f (segField b)) bs⟩

/-- A row of one byte and one byte of data (port, type, disp). -/
def rowByte (val : Byte) (f : Byte → Instr) : Row :=
  ⟨0xFF, val, none, fun _ _ bs => withByte bs fun v => done (f v)⟩

/-- A row of one byte and two bytes of data. -/
def rowWord (val : Byte) (f : Word → Instr) : Row :=
  ⟨0xFF, val, none, fun _ _ bs => withWord bs fun v => done (f v)⟩

/-- A row of one byte and a far pointer, offset first (30 R69). -/
def rowFar (val : Byte) (f : Word → Word → Instr) : Row :=
  ⟨0xFF, val, none, fun _ _ bs => withWord bs fun off bs => withWord bs fun sg => done (f off sg)⟩

/-- Form RMR: d in bit 1, w in bit 0, mod reg r/m (30 R71). -/
def rowRmr (val : Byte) (f : Dir → Width → RegField → RM → Instr) : Row :=
  ⟨0xFC, val, some (0x00, 0x00), fun b m bs =>
    withRm m bs fun rm => done (f (.ofBit (b.getLsbD 1)) (.ofBit (b.getLsbD 0)) (.ofCode (regBits m)) rm)⟩

/-- Form RMR without a d bit (30 R71). -/
def rowRmrNoD (val : Byte) (f : Width → RegField → RM → Instr) : Row :=
  ⟨0xFE, val, some (0x00, 0x00), fun b m bs =>
    withRm m bs fun rm => done (f (.ofBit (b.getLsbD 0)) (.ofCode (regBits m)) rm)⟩

/-- Form IRM with the immediate by w (30 R67, R72); `val2` holds the fixed reg position. -/
def rowIrm (val val2 : Byte) (f : RM → Imm → Instr) : Row :=
  ⟨0xFE, val, some (0x38, val2), fun b m bs =>
    withRm m bs fun rm bs => withImm (.ofBit (b.getLsbD 0)) bs fun imm => done (f rm imm)⟩

/-- Form IRM with the immediate by s:w (30 R68, R72). -/
def rowIrmSw (val2 : Byte) (f : RM → SwImm → Instr) : Row :=
  ⟨0xFC, 0x80, some (0x38, val2), fun b m bs =>
    withRm m bs fun rm bs => withSwImm (b.getLsbD 1) (b.getLsbD 0) bs fun imm => done (f rm imm)⟩

/-- Form IACC (30 R73). -/
def rowIacc (val : Byte) (f : Imm → Instr) : Row :=
  ⟨0xFE, val, none, fun b _ bs => withImm (.ofBit (b.getLsbD 0)) bs fun imm => done (f imm)⟩

/-- Form RM1 with w in bit 0 (30 R74). -/
def rowRm1W (val val2 : Byte) (f : Width → RM → Instr) : Row :=
  ⟨0xFE, val, some (0x38, val2), fun b m bs => withRm m bs fun rm => done (f (.ofBit (b.getLsbD 0)) rm)⟩

/-- Form RM1, always a word (30 R74). -/
def rowRm1 (val val2 : Byte) (f : RM → Instr) : Row :=
  ⟨0xFF, val, some (0x38, val2), fun _ m bs => withRm m bs fun rm => done (f rm)⟩

/-- Form RM1 with a memory operand only (30 R74, R79 item 7). -/
def rowMem1 (val val2 : Byte) (f : MemOp → Instr) : Row :=
  ⟨0xFF, val, some (0x38, val2), fun b m bs => withMem b m bs fun mem => done (f mem)⟩

/-- A 16-bit register and a memory operand (LEA, LDS, LES; 30 R65, R79 item 7). -/
def rowRegMem (val : Byte) (f : RegField → MemOp → Instr) : Row :=
  ⟨0xFF, val, some (0x00, 0x00), fun b m bs => withMem b m bs fun mem => done (f (.ofCode (regBits m)) mem)⟩

/-- A segment register in bits 4-3 of the second byte, bit 5 fixed 0, and an r/m operand (30 R66, R79 item 5). -/
def rowSregRm (val : Byte) (f : SReg → RM → Instr) : Row :=
  ⟨0xFF, val, some (0x20, 0x00), fun _ m bs => withRm m bs fun rm => done (f (segField m) rm)⟩

/-- The shifts and rotates: v in bit 1, w in bit 0 of D0-D3 (42_logic.md R140). -/
def rowShift (val2 : Byte) (f : CountSel → Width → RM → Instr) : Row :=
  ⟨0xFC, 0xD0, some (0x38, val2), fun b m bs =>
    withRm m bs fun rm => done (f (.ofBit (b.getLsbD 1)) (.ofBit (b.getLsbD 0)) rm)⟩

/-- AAM and AAD: the second byte is 0x0A unless `AAM_AAD_ANY_BASE` (30 R79 item 6). -/
def rowBase (val : Byte) (f : Byte → Instr) : Row :=
  ⟨0xFF, val, some (0x00, 0x00), fun _ m bs =>
    if baseWellFormed m then done (f m) bs else .error (.adjustBase m)⟩

/-- MOV immediate to register: w in bit 3, reg in bits 2-0 (40_data_transfer.md R92). -/
def rowMovRegImm (val : Byte) (f : RegField → Imm → Instr) : Row :=
  ⟨0xF0, val, none, fun b _ bs =>
    withImm (.ofBit (b.getLsbD 3)) bs fun imm => done (f (.ofCode (lowBits b)) imm)⟩

/-- A direct address with w in bit 0 (30 R69). -/
def rowWAddr (val : Byte) (f : Width → Word → Instr) : Row :=
  ⟨0xFE, val, none, fun b _ bs => withWord bs fun a => done (f (.ofBit (b.getLsbD 0)) a)⟩

/-- A port byte with w in bit 0 (30 R69). -/
def rowWPort (val : Byte) (f : Width → Byte → Instr) : Row :=
  ⟨0xFE, val, none, fun b _ bs => withByte bs fun p => done (f (.ofBit (b.getLsbD 0)) p)⟩

/-- ESC: three don't-care bits in the first byte and three in the second (45_processor_control.md R219). -/
def rowEsc (val : Byte) (f : BitVec 3 → BitVec 3 → RM → Instr) : Row :=
  ⟨0xF8, val, some (0x00, 0x00), fun b m bs => withRm m bs fun rm => done (f (lowBits b) (regBits m) rm)⟩

/-- REP: z in bit 0 (43_string.md R161). -/
def rowRep (val : Byte) (f : Bool → Instr) : Row :=
  ⟨0xFE, val, none, fun b _ bs => done (f (b.getLsbD 0)) bs⟩

/-- Group DATA TRANSFER (40_data_transfer.md). -/
def rowsDataTransfer : List Row := [
  rowRmr 0x88 .movRmReg, rowIrm 0xC6 0x00 .movRmImm, rowMovRegImm 0xB0 .movRegImm,
  rowWAddr 0xA0 .movAccMem, rowWAddr 0xA2 .movMemAcc, rowSregRm 0x8E .movSregRm, rowSregRm 0x8C .movRmSreg,
  rowRm1 0xFF 0x30 .pushRm, rowReg 0x50 .pushReg, rowSreg 0x06 .pushSreg,
  rowRm1 0x8F 0x00 .popRm, rowReg 0x58 .popReg, rowSreg 0x07 .popSreg,
  rowRmrNoD 0x86 .xchgRmReg, rowReg 0x90 .xchgAccReg,
  rowWPort 0xE4 .inFixed, rowW 0xEC .inVariable, rowWPort 0xE6 .outFixed, rowW 0xEE .outVariable,
  rowPlain 0xD7 .xlat, rowRegMem 0x8D .lea, rowRegMem 0xC5 .lds, rowRegMem 0xC4 .les,
  rowPlain 0x9F .lahf, rowPlain 0x9E .sahf, rowPlain 0x9C .pushf, rowPlain 0x9D .popf]

/-- Group ARITHMETIC (41_arithmetic.md; SBB accumulator row by 90_conflicts.md C1). -/
def rowsArithmetic : List Row := [
  rowRmr 0x00 .addRmReg, rowIrmSw 0x00 .addRmImm, rowIacc 0x04 .addAccImm,
  rowRmr 0x10 .adcRmReg, rowIrmSw 0x10 .adcRmImm, rowIacc 0x14 .adcAccImm,
  rowRm1W 0xFE 0x00 .incRm, rowReg 0x40 .incReg, rowPlain 0x37 .aaa, rowPlain 0x27 .daa,
  rowRmr 0x28 .subRmReg, rowIrmSw 0x28 .subRmImm, rowIacc 0x2C .subAccImm,
  rowRmr 0x18 .sbbRmReg, rowIrmSw 0x18 .sbbRmImm, rowIacc 0x1C .sbbAccImm,
  rowRm1W 0xFE 0x08 .decRm, rowReg 0x48 .decReg, rowRm1W 0xF6 0x18 .neg,
  rowRmr 0x38 .cmpRmReg, rowIrmSw 0x38 .cmpRmImm, rowIacc 0x3C .cmpAccImm,
  rowPlain 0x3F .aas, rowPlain 0x2F .das,
  rowRm1W 0xF6 0x20 .mul, rowRm1W 0xF6 0x28 .imul, rowBase 0xD4 .aam,
  rowRm1W 0xF6 0x30 .div, rowRm1W 0xF6 0x38 .idiv, rowBase 0xD5 .aad,
  rowPlain 0x98 .cbw, rowPlain 0x99 .cwd]

/-- Group LOGIC (42_logic.md). -/
def rowsLogic : List Row := [
  rowRm1W 0xF6 0x10 .not,
  rowShift 0x20 .shl, rowShift 0x28 .shr, rowShift 0x38 .sar,
  rowShift 0x00 .rol, rowShift 0x08 .ror, rowShift 0x10 .rcl, rowShift 0x18 .rcr,
  rowRmr 0x20 .andRmReg, rowIrm 0x80 0x20 .andRmImm, rowIacc 0x24 .andAccImm,
  rowRmrNoD 0x84 .testRmReg, rowIrm 0xF6 0x00 .testRmImm, rowIacc 0xA8 .testAccImm,
  rowRmr 0x08 .orRmReg, rowIrm 0x80 0x08 .orRmImm, rowIacc 0x0C .orAccImm,
  rowRmr 0x30 .xorRmReg, rowIrm 0x80 0x30 .xorRmImm, rowIacc 0x34 .xorAccImm]

/-- Group STRING MANIPULATION (43_string.md). -/
def rowsString : List Row := [
  rowRep 0xF2 .rep, rowW 0xA4 .movs, rowW 0xA6 .cmps, rowW 0xAE .scas, rowW 0xAC .lods, rowW 0xAA .stos]

/-- Group CONTROL TRANSFER (44_control_transfer.md). -/
def rowsControlTransfer : List Row := [
  rowWord 0xE8 .callRel, rowRm1 0xFF 0x10 .callRm, rowFar 0x9A .callFar, rowMem1 0xFF 0x18 .callFarMem,
  rowWord 0xE9 .jmpRel, rowByte 0xEB .jmpShort, rowRm1 0xFF 0x20 .jmpRm, rowFar 0xEA .jmpFar,
  rowMem1 0xFF 0x28 .jmpFarMem,
  rowPlain 0xC3 .ret, rowWord 0xC2 .retImm, rowPlain 0xCB .retFar, rowWord 0xCA .retFarImm,
  rowByte 0x74 .je, rowByte 0x7C .jl, rowByte 0x7E .jle, rowByte 0x72 .jb, rowByte 0x76 .jbe, rowByte 0x7A .jp,
  rowByte 0x70 .jo, rowByte 0x78 .js, rowByte 0x75 .jne, rowByte 0x7D .jnl, rowByte 0x7F .jnle, rowByte 0x73 .jnb,
  rowByte 0x77 .jnbe, rowByte 0x7B .jnp, rowByte 0x71 .jno, rowByte 0x79 .jns,
  rowByte 0xE2 .loop, rowByte 0xE1 .loopz, rowByte 0xE0 .loopnz, rowByte 0xE3 .jcxz,
  rowByte 0xCD .int, rowPlain 0xCC .int3, rowPlain 0xCE .into, rowPlain 0xCF .iret]

/-- Group PROCESSOR CONTROL and the segment override (45_processor_control.md). -/
def rowsProcessorControl : List Row := [
  rowPlain 0xF8 .clc, rowPlain 0xF5 .cmc, rowPlain 0xF9 .stc, rowPlain 0xFC .cld, rowPlain 0xFD .std,
  rowPlain 0xFA .cli, rowPlain 0xFB .sti, rowPlain 0xF4 .hlt, rowPlain 0x9B .wait,
  rowEsc 0xD8 .esc, rowPlain 0xF0 .lock, rowSreg 0x26 .seg]

/-- The opcode table: 134 rows in the order of spec/opcode_table.json. -/
def rows : List Row :=
  rowsDataTransfer ++ rowsArithmetic ++ rowsLogic ++ rowsString ++ rowsControlTransfer ++ rowsProcessorControl

/-- Why no row fits (30 R79): the first byte has no row at all, or none with this second byte. -/
def noRow (b m : Byte) : DecodeError :=
  if rows.any fun r => (b &&& r.mask) == r.val then .unassignedSecond b m else .unassigned b

/-- The instruction the bytes begin with, and the bytes after it (30 R76). Each of the three prefixes is read as one
instruction of one byte; 30 R75 says how they act on what follows. -/
def decode (bytes : List Byte) : Parsed Instr :=
  match bytes with
  | [] => .error .truncated
  | b :: rest =>
    match rows.find? fun r => r.fits b (rest.headD 0) with
    | none => .error (noRow b (rest.headD 0))
    | some r =>
      match r.second with
      | none => r.parse b 0 rest
      | some _ =>
        match rest with
        | [] => .error .truncated
        | m :: rest' => r.parse b m rest'

/-! ### The encoder -/

/-- A word as it stands in an instruction: low byte first (30 R69). -/
def wordBytes (v : Word) : List Byte := [v.extractLsb' 0 8, v.extractLsb' 8 8]

/-- The bytes of an immediate by w (30 R67). -/
def Imm.bytes : Imm → List Byte
  | .byte v => [v]
  | .word v => wordBytes v

/-- The bytes of an immediate by s:w (30 R68). -/
def SwImm.bytes : SwImm → List Byte
  | .s0w0 v => [v]
  | .s0w1 v => wordBytes v
  | .s1w0 v => [v]
  | .s1w1 v => [v]

/-- The s:w bits of an immediate (30 R68). -/
def SwImm.swBits : SwImm → BitVec 2
  | .s0w0 _ => 0b00#2
  | .s0w1 _ => 0b01#2
  | .s1w0 _ => 0b10#2
  | .s1w1 _ => 0b11#2

/-- The second byte mod reg r/m and the displacement bytes of a memory operand (30 R62 to R64). -/
def MemOp.bytes (reg : BitVec 3) : MemOp → List Byte
  | .noDisp base => [0b00#2 ++ reg ++ base.code]
  | .direct a => (0b00#2 ++ reg ++ 0b110#3) :: wordBytes a
  | .disp8 base d => [0b01#2 ++ reg ++ base.code, d]
  | .disp16 base d => (0b10#2 ++ reg ++ base.code) :: wordBytes d

/-- The second byte mod reg r/m and the displacement bytes (30 R62 to R64). -/
def RM.bytes (reg : BitVec 3) : RM → List Byte
  | .reg r => [0b11#2 ++ reg ++ r.code]
  | .mem m => m.bytes reg

/-- The bytes of an instruction, from the encoding column of spec/opcode_table.json. -/
def encode : Instr → List Byte
  | .movRmReg d w reg rm => (0b100010#6 ++ d.bit ++ w.bit) :: rm.bytes reg.code
  | .movRmImm rm imm => (0b1100011#7 ++ imm.width.bit) :: rm.bytes 0b000#3 ++ imm.bytes
  | .movRegImm reg imm => (0b1011#4 ++ imm.width.bit ++ reg.code) :: imm.bytes
  | .movAccMem w addr => (0b1010000#7 ++ w.bit) :: wordBytes addr
  | .movMemAcc w addr => (0b1010001#7 ++ w.bit) :: wordBytes addr
  | .movSregRm sr rm => 0b10001110#8 :: rm.bytes (0b0#1 ++ sr.code)
  | .movRmSreg sr rm => 0b10001100#8 :: rm.bytes (0b0#1 ++ sr.code)
  | .pushRm rm => 0b11111111#8 :: rm.bytes 0b110#3
  | .pushReg reg => [0b01010#5 ++ reg.code]
  | .pushSreg sr => [0b000#3 ++ sr.code ++ 0b110#3]
  | .popRm rm => 0b10001111#8 :: rm.bytes 0b000#3
  | .popReg reg => [0b01011#5 ++ reg.code]
  | .popSreg sr => [0b000#3 ++ sr.code ++ 0b111#3]
  | .xchgRmReg w reg rm => (0b1000011#7 ++ w.bit) :: rm.bytes reg.code
  | .xchgAccReg reg => [0b10010#5 ++ reg.code]
  | .inFixed w port => [0b1110010#7 ++ w.bit, port]
  | .inVariable w => [0b1110110#7 ++ w.bit]
  | .outFixed w port => [0b1110011#7 ++ w.bit, port]
  | .outVariable w => [0b1110111#7 ++ w.bit]
  | .xlat => [0b11010111#8]
  | .lea reg m => 0b10001101#8 :: m.bytes reg.code
  | .lds reg m => 0b11000101#8 :: m.bytes reg.code
  | .les reg m => 0b11000100#8 :: m.bytes reg.code
  | .lahf => [0b10011111#8]
  | .sahf => [0b10011110#8]
  | .pushf => [0b10011100#8]
  | .popf => [0b10011101#8]
  | .addRmReg d w reg rm => (0b000000#6 ++ d.bit ++ w.bit) :: rm.bytes reg.code
  | .addRmImm rm imm => (0b100000#6 ++ imm.swBits) :: rm.bytes 0b000#3 ++ imm.bytes
  | .addAccImm imm => (0b0000010#7 ++ imm.width.bit) :: imm.bytes
  | .adcRmReg d w reg rm => (0b000100#6 ++ d.bit ++ w.bit) :: rm.bytes reg.code
  | .adcRmImm rm imm => (0b100000#6 ++ imm.swBits) :: rm.bytes 0b010#3 ++ imm.bytes
  | .adcAccImm imm => (0b0001010#7 ++ imm.width.bit) :: imm.bytes
  | .incRm w rm => (0b1111111#7 ++ w.bit) :: rm.bytes 0b000#3
  | .incReg reg => [0b01000#5 ++ reg.code]
  | .aaa => [0b00110111#8]
  | .daa => [0b00100111#8]
  | .subRmReg d w reg rm => (0b001010#6 ++ d.bit ++ w.bit) :: rm.bytes reg.code
  | .subRmImm rm imm => (0b100000#6 ++ imm.swBits) :: rm.bytes 0b101#3 ++ imm.bytes
  | .subAccImm imm => (0b0010110#7 ++ imm.width.bit) :: imm.bytes
  | .sbbRmReg d w reg rm => (0b000110#6 ++ d.bit ++ w.bit) :: rm.bytes reg.code
  | .sbbRmImm rm imm => (0b100000#6 ++ imm.swBits) :: rm.bytes 0b011#3 ++ imm.bytes
  | .sbbAccImm imm => (0b0001110#7 ++ imm.width.bit) :: imm.bytes
  | .decRm w rm => (0b1111111#7 ++ w.bit) :: rm.bytes 0b001#3
  | .decReg reg => [0b01001#5 ++ reg.code]
  | .neg w rm => (0b1111011#7 ++ w.bit) :: rm.bytes 0b011#3
  | .cmpRmReg d w reg rm => (0b001110#6 ++ d.bit ++ w.bit) :: rm.bytes reg.code
  | .cmpRmImm rm imm => (0b100000#6 ++ imm.swBits) :: rm.bytes 0b111#3 ++ imm.bytes
  | .cmpAccImm imm => (0b0011110#7 ++ imm.width.bit) :: imm.bytes
  | .aas => [0b00111111#8]
  | .das => [0b00101111#8]
  | .mul w rm => (0b1111011#7 ++ w.bit) :: rm.bytes 0b100#3
  | .imul w rm => (0b1111011#7 ++ w.bit) :: rm.bytes 0b101#3
  | .aam base => [0b11010100#8, base]
  | .div w rm => (0b1111011#7 ++ w.bit) :: rm.bytes 0b110#3
  | .idiv w rm => (0b1111011#7 ++ w.bit) :: rm.bytes 0b111#3
  | .aad base => [0b11010101#8, base]
  | .cbw => [0b10011000#8]
  | .cwd => [0b10011001#8]
  | .not w rm => (0b1111011#7 ++ w.bit) :: rm.bytes 0b010#3
  | .shl v w rm => (0b110100#6 ++ v.bit ++ w.bit) :: rm.bytes 0b100#3
  | .shr v w rm => (0b110100#6 ++ v.bit ++ w.bit) :: rm.bytes 0b101#3
  | .sar v w rm => (0b110100#6 ++ v.bit ++ w.bit) :: rm.bytes 0b111#3
  | .rol v w rm => (0b110100#6 ++ v.bit ++ w.bit) :: rm.bytes 0b000#3
  | .ror v w rm => (0b110100#6 ++ v.bit ++ w.bit) :: rm.bytes 0b001#3
  | .rcl v w rm => (0b110100#6 ++ v.bit ++ w.bit) :: rm.bytes 0b010#3
  | .rcr v w rm => (0b110100#6 ++ v.bit ++ w.bit) :: rm.bytes 0b011#3
  | .andRmReg d w reg rm => (0b001000#6 ++ d.bit ++ w.bit) :: rm.bytes reg.code
  | .andRmImm rm imm => (0b1000000#7 ++ imm.width.bit) :: rm.bytes 0b100#3 ++ imm.bytes
  | .andAccImm imm => (0b0010010#7 ++ imm.width.bit) :: imm.bytes
  | .testRmReg w reg rm => (0b1000010#7 ++ w.bit) :: rm.bytes reg.code
  | .testRmImm rm imm => (0b1111011#7 ++ imm.width.bit) :: rm.bytes 0b000#3 ++ imm.bytes
  | .testAccImm imm => (0b1010100#7 ++ imm.width.bit) :: imm.bytes
  | .orRmReg d w reg rm => (0b000010#6 ++ d.bit ++ w.bit) :: rm.bytes reg.code
  | .orRmImm rm imm => (0b1000000#7 ++ imm.width.bit) :: rm.bytes 0b001#3 ++ imm.bytes
  | .orAccImm imm => (0b0000110#7 ++ imm.width.bit) :: imm.bytes
  | .xorRmReg d w reg rm => (0b001100#6 ++ d.bit ++ w.bit) :: rm.bytes reg.code
  | .xorRmImm rm imm => (0b1000000#7 ++ imm.width.bit) :: rm.bytes 0b110#3 ++ imm.bytes
  | .xorAccImm imm => (0b0011010#7 ++ imm.width.bit) :: imm.bytes
  | .rep z => [0b1111001#7 ++ BitVec.ofBool z]
  | .movs w => [0b1010010#7 ++ w.bit]
  | .cmps w => [0b1010011#7 ++ w.bit]
  | .scas w => [0b1010111#7 ++ w.bit]
  | .lods w => [0b1010110#7 ++ w.bit]
  | .stos w => [0b1010101#7 ++ w.bit]
  | .callRel disp => 0b11101000#8 :: wordBytes disp
  | .callRm rm => 0b11111111#8 :: rm.bytes 0b010#3
  | .callFar off sg => 0b10011010#8 :: wordBytes off ++ wordBytes sg
  | .callFarMem m => 0b11111111#8 :: m.bytes 0b011#3
  | .jmpRel disp => 0b11101001#8 :: wordBytes disp
  | .jmpShort disp => [0b11101011#8, disp]
  | .jmpRm rm => 0b11111111#8 :: rm.bytes 0b100#3
  | .jmpFar off sg => 0b11101010#8 :: wordBytes off ++ wordBytes sg
  | .jmpFarMem m => 0b11111111#8 :: m.bytes 0b101#3
  | .ret => [0b11000011#8]
  | .retImm data => 0b11000010#8 :: wordBytes data
  | .retFar => [0b11001011#8]
  | .retFarImm data => 0b11001010#8 :: wordBytes data
  | .je disp => [0b01110100#8, disp]
  | .jl disp => [0b01111100#8, disp]
  | .jle disp => [0b01111110#8, disp]
  | .jb disp => [0b01110010#8, disp]
  | .jbe disp => [0b01110110#8, disp]
  | .jp disp => [0b01111010#8, disp]
  | .jo disp => [0b01110000#8, disp]
  | .js disp => [0b01111000#8, disp]
  | .jne disp => [0b01110101#8, disp]
  | .jnl disp => [0b01111101#8, disp]
  | .jnle disp => [0b01111111#8, disp]
  | .jnb disp => [0b01110011#8, disp]
  | .jnbe disp => [0b01110111#8, disp]
  | .jnp disp => [0b01111011#8, disp]
  | .jno disp => [0b01110001#8, disp]
  | .jns disp => [0b01111001#8, disp]
  | .loop disp => [0b11100010#8, disp]
  | .loopz disp => [0b11100001#8, disp]
  | .loopnz disp => [0b11100000#8, disp]
  | .jcxz disp => [0b11100011#8, disp]
  | .int type => [0b11001101#8, type]
  | .int3 => [0b11001100#8]
  | .into => [0b11001110#8]
  | .iret => [0b11001111#8]
  | .clc => [0b11111000#8]
  | .cmc => [0b11110101#8]
  | .stc => [0b11111001#8]
  | .cld => [0b11111100#8]
  | .std => [0b11111101#8]
  | .cli => [0b11111010#8]
  | .sti => [0b11111011#8]
  | .hlt => [0b11110100#8]
  | .wait => [0b10011011#8]
  | .esc x0 x1 rm => (0b11011#5 ++ x0) :: rm.bytes x1
  | .lock => [0b11110000#8]
  | .seg sr => [0b001#3 ++ sr.code ++ 0b110#3]

/-! ### Kinds of instruction the step asks about -/

/-- The three prefixes (30 R75). -/
def Instr.actsAsPrefix (i : Instr) : Bool :=
  match i with
  | .rep _ => true
  | .lock => true
  | .seg _ => true
  | _ => false

/-- The five string primitives, the only instructions REP may precede (30 R75, 43 R161). -/
def Instr.isStringPrimitive (i : Instr) : Bool :=
  match i with
  | .movs _ => true
  | .cmps _ => true
  | .scas _ => true
  | .lods _ => true
  | .stos _ => true
  | _ => false

/-! ### Words as spec/opcode_table.json numbers them -/

/-- The bytes of a table word of `k` bytes: the table numbers a row of two bytes with the first byte in the high digits
(30 R85, and the `fixed` ranges of spec/opcode_table.json), so the first byte is the most significant. Log 1. -/
def tableWordBytes : Nat → Nat → List Byte
  | 0, _ => []
  | k + 1, w => BitVec.ofNat 8 (w >>> (8 * k)) :: tableWordBytes k w

/-- The bytes as they lie in memory: the word's own, then zeros for every byte the table gives no bits. -/
def tableInstrBytes (nbits w : Nat) : List Byte :=
  tableWordBytes (nbits / 8) w ++ List.replicate Config.maxInstrBytes 0

/-- The instruction the decoder reads from an instruction whose bits are `w`, numbered as the table numbers them. -/
def decodeTableWord (nbits w : Nat) : Option Instr :=
  match decode (tableInstrBytes nbits w) with
  | .ok (i, _) => some i
  | .error _ => none

end Sys2Proof
end

