-- ==== Sys2Proof/Machine/State.lean ====
section
/-! DEFINITION. The state of the machine, as plain data, its reset value, and the ways a step can stop. Each field cites the
rule of spec/ that names it; INVENTORY.md lists them with their reset values. -/

namespace Sys2Proof.Machine

/-- The eight 16-bit general registers (10_state.md R20). The byte registers are halves of the first four (R21). -/
structure Gpr where
  ax : Word
  cx : Word
  dx : Word
  bx : Word
  sp : Word
  bp : Word
  si : Word
  di : Word
  deriving DecidableEq, Repr

/-- The four 16-bit segment registers (10_state.md R23). -/
structure SegRegs where
  es : Word
  cs : Word
  ss : Word
  ds : Word
  deriving DecidableEq, Repr

/-- The nine flags of FLAGS (10_state.md R25); the X positions hold no state (R27). `ifl` is IF. -/
structure Flags where
  of : Bool
  df : Bool
  ifl : Bool
  tf : Bool
  sf : Bool
  zf : Bool
  af : Bool
  pf : Bool
  cf : Bool
  deriving DecidableEq, Repr

/-- Memory: the bytes that differ from what an unlisted address reads as, addresses strictly rising (20_memory.md R40). -/
abbrev Memory := List Host.Cell

/-- What a byte of memory that nothing has written reads as. The spec leaves memory after reset to the platform (10 R33,
70 R261). DESIGN CHOICE 0, see log 3. Unsafe. -/
def unlistedByte : Byte := 0

/-- Canonical from an address on: strictly rising addresses, at least `lo` and below 2^20, no entry equal to what an
unlisted address reads as. -/
def cellsFrom (lo : Nat) : Memory → Bool
  | [] => true
  | (a, b) :: rest => lo ≤ a && a < Config.memBytes && b != unlistedByte && cellsFrom (a + 1) rest

/-- The canonical form of memory, so that equal memories are equal data. -/
def Memory.wf (m : Memory) : Bool := cellsFrom 0 m

/-- The prefixes of the instruction being decoded (10_state.md R30, 30_encoding.md R75). -/
structure PrefixState where
  /-- The segment register of the last segment override. -/
  seg : Option SReg
  /-- The z bit of the last REP. -/
  rep : Option Bool
  /-- LOCK was seen: the LOCK output is asserted until the instruction is over (20_memory.md R53, 45 R220), which a WAIT that
  has to look again is not (log 11). -/
  lock : Bool
  /-- How many prefix bytes were fetched (43_string.md R161 corner case 5). -/
  count : Nat
  deriving DecidableEq, Repr

/-- No prefix. -/
def PrefixState.none : PrefixState := ⟨Option.none, Option.none, false, 0⟩

/-- Where in a step the RESET input becomes active, if it does: it can occur at any time (70_reset_and_hazards.md R260). -/
inductive ResetInput where
  /-- Not at all. -/
  | inactive
  /-- It is active when the step begins. -/
  | atStart
  /-- While the instruction, or the element of a repeated string instruction, is in progress. -/
  | inInstr
  /-- At the boundary, while an interrupt sequence begun there is in progress. -/
  | atBoundary
  deriving DecidableEq, Repr

/-- What the host presents in one step, up to and at its boundary (60_exceptions.md R236, 45 R218, 70 R260). -/
structure HostInput where
  /-- The RESET input. -/
  reset : ResetInput
  /-- A rising edge on NMI. -/
  nmiEdge : Bool
  /-- INTR: none = line inactive, some t = active with the type the device would supply. -/
  intr : Option Byte
  /-- The TEST input is active. -/
  test : Bool
  /-- What anything other than the processor writes to memory by this boundary, the first first: `EXTERNAL_AGENTS` (00 R5,
  20 R51, 92 D19), which is none where this list is empty in every record. Log 13. -/
  writes : List Host.Cell
  deriving DecidableEq, Repr

/-- A host that asks for nothing and writes nothing, TEST active. DESIGN CHOICE, see log 6. -/
def HostInput.quiet : HostInput := ⟨.inactive, false, Option.none, true, []⟩

/-- One port access as the platform sees it (20_memory.md R48). -/
inductive IoEvent where
  | read (port : Word) (w : Width)
  | write (port : Word) (w : Width) (v : Word)
  deriving DecidableEq, Repr

/-- The state of the machine. -/
structure State where
  /-- General registers (10 R20). -/
  gpr : Gpr
  /-- Segment registers (10 R23). -/
  seg : SegRegs
  /-- The instruction pointer (10 R24). -/
  ip : Word
  /-- FLAGS (10 R25). -/
  flags : Flags
  /-- Memory (20 R40). -/
  mem : Memory
  /-- Set by HLT (10 R30, 45 R217). -/
  halted : Bool
  /-- The boundary after this instruction recognises nothing (10 R30, 60 R237). -/
  intInhibit : Bool
  /-- The NMI latch (10 R30, 60 R236). -/
  nmiPending : Bool
  /-- TF when the instruction began (10 R30, 60 R238). -/
  tfAtStart : Bool
  /-- The model's own: the instruction is a WAIT that has to look again (45 R218). Log 11. -/
  waiting : Bool
  /-- The model's own: no instruction has been completed since reset (93_implementation_defined.md U15). Log 16. -/
  justReset : Bool
  /-- Offset of the instruction's first byte, its first prefix byte if any (43 R161, 45 R218). -/
  startIp : Word
  /-- Prefixes of the instruction (10 R30, 30 R75). -/
  pfx : PrefixState
  /-- Physical addresses written inside the prefetch window since the last taken transfer (20 R54). Log 10. -/
  staleCode : List Nat
  /-- What the host presents, one record per boundary, the next first (60 R236). Log 6. -/
  inputs : List HostInput
  /-- The level at which the host leaves TEST once `inputs` is used up; false is a TEST that is never active (45 R218,
  70 R263). Log 6. -/
  testLevel : Bool
  /-- What the platform answers to port reads, byte by byte, the next first (20 R48). Log 8. -/
  portIn : List Byte
  /-- The port accesses performed, the oldest first (20 R48). Log 8. -/
  io : List IoEvent
  /-- The model's own: the index of the next free value (00 R12). Log 5. -/
  freeCount : Nat
  deriving DecidableEq, Repr

/-- The machine right after reset (10_state.md R33, 70_reset_and_hazards.md R260): FLAGS 0, IP 0, CS 0xFFFF, DS = ES =
SS = 0, nothing halted, inhibited or pending, the queue empty. The general registers are 0 by DESIGN CHOICE (log 2),
memory has nothing listed (log 3), the model's own fields are empty or 0 (logs 5, 6, 8, 16). -/
def State.reset : State where
  gpr := ⟨0, 0, 0, 0, 0, 0, 0, 0⟩
  seg := ⟨0, Config.resetCs, 0, 0⟩
  ip := Config.resetIp
  flags := ⟨false, false, false, false, false, false, false, false, false⟩
  mem := []
  halted := false
  intInhibit := false
  nmiPending := false
  tfAtStart := false
  waiting := false
  justReset := true
  startIp := 0
  pfx := PrefixState.none
  staleCode := []
  inputs := []
  testLevel := true
  portIn := []
  io := []
  freeCount := 0

/-- Why the machine stops with a fault: never. No cause of the spec stops the processor (60_exceptions.md R230, R241):
the one instruction-caused fault, the divide error, is an interrupt that is taken. Log 18. -/
inductive Fault where
  deriving DecidableEq, Repr

/-- Why a step has no meaning: the spec's `refuse` (00_scope.md R12). -/
inductive Refusal where
  /-- An instruction that has no meaning yet; raised by no arm of exec. Safe. -/
  | notModelled (mnemonic : String)
  /-- The bytes at CS:IP match no row (30_encoding.md R79 items 1 to 7); raised by the fetch. Safe. -/
  | undecodable (e : DecodeError)
  /-- POP CS or MOV CS, r/m while `ADMIT_CS_LOAD` is false (30 R79 item 8, 92 D7); raised by their meanings. Safe. -/
  | csLoad
  /-- REP before an opcode that is no string primitive (30 R79 item 9, 43 R161); raised by the step. Safe. -/
  | repBeforeNonString
  /-- The whole code segment holds prefix bytes, so that no opcode ever follows (30 R79 item 9); raised by the step.
  Safe. -/
  | onlyPrefixBytes
  /-- A word access at I/O port 0xFFFF (20_memory.md R48); raised by IN and OUT with the port in DX. Safe. -/
  | wordPortFFFF
  /-- A byte was written inside the prefetch window and is fetched with no taken transfer between (20 R54); raised by the
  fetch. Safe. -/
  | stalePrefetch
  /-- An interrupt is due between the elements of a repetition with two or more prefix bytes (43 R161 corner case 5);
  raised by the string primitives, unless RESET comes at that boundary (log 7). Safe. -/
  | repInterruptedManyPrefixes
  /-- An NMI edge was delivered before the first instruction after reset was completed (93_implementation_defined.md U15);
  raised by the step. Safe. -/
  | nmiBeforeFirstBoundary
  deriving DecidableEq, Repr

end Sys2Proof.Machine
end

