-- ==== Sys2Proof/Machine/Flags.lean ====
section
/-! DEFINITION. Flag computations: the FLAGS image (10_state.md R25, R27), the helpers of 00_scope.md R8, and what each
two-operand operation, shift and rotate computes (41_arithmetic.md, 42_logic.md). All are pure functions; a flag the spec
marks `?` takes its bit from `any`, a free FLAGS value that the caller draws (00 R9, 92 D10). -/

namespace Sys2Proof.Machine

/-! ### FLAGS as a word -/

/-- FLAGS as a 16-bit object, X:X:X:X:OF:DF:IF:TF:SF:ZF:X:AF:X:PF:X:CF, the X bits as `FLAGS_X_READ` (10 R25, R27). -/
def Flags.image (f : Flags) : Word :=
  Config.flagsXRead.extractLsb' 12 4 ++ BitVec.ofBool f.of ++ BitVec.ofBool f.df ++ BitVec.ofBool f.ifl ++
    BitVec.ofBool f.tf ++ BitVec.ofBool f.sf ++ BitVec.ofBool f.zf ++ Config.flagsXRead.extractLsb' 5 1 ++
    BitVec.ofBool f.af ++ Config.flagsXRead.extractLsb' 3 1 ++ BitVec.ofBool f.pf ++
    Config.flagsXRead.extractLsb' 1 1 ++ BitVec.ofBool f.cf

/-- The nine flags of a 16-bit image; the bits at X positions are discarded (10 R25, R27; 40 R116). -/
def Flags.ofImage (v : Word) : Flags where
  of := v.getLsbD 11
  df := v.getLsbD 10
  ifl := v.getLsbD 9
  tf := v.getLsbD 8
  sf := v.getLsbD 7
  zf := v.getLsbD 6
  af := v.getLsbD 4
  pf := v.getLsbD 2
  cf := v.getLsbD 0

/-! ### Helpers of 00_scope.md R8 -/

/-- `parity8`: the low byte has an even number of 1 bits (00 R8). -/
def parity8 {n : Nat} (v : BitVec n) : Bool :=
  (List.range 8).countP (fun i => v.getLsbD i) % 2 == 0

/-- `SZP_n(r)`: SF, ZF, PF from a result (00 R8). -/
def Flags.setSzp {n : Nat} (f : Flags) (r : BitVec n) : Flags :=
  { f with sf := r.msb, zf := r == 0, pf := parity8 r }

/-- What `add_n` and `sub_n` give: the result, CF, AF and OF (00 R8). -/
structure Sum (n : Nat) where
  res : BitVec n
  cf : Bool
  af : Bool
  of : Bool
  deriving DecidableEq, Repr

/-- `add_n(a, b, c)` (00 R8). -/
def addN {n : Nat} (a b : BitVec n) (c : Bool) : Sum n where
  res := BitVec.ofNat n (a.toNat + b.toNat + c.toNat)
  cf := 2 ^ n ≤ a.toNat + b.toNat + c.toNat
  af := 15 < a.toNat % 16 + b.toNat % 16 + c.toNat
  of := a.msb == b.msb && (BitVec.ofNat n (a.toNat + b.toNat + c.toNat)).msb != a.msb

/-- `sub_n(a, b, c)` (00 R8). -/
def subN {n : Nat} (a b : BitVec n) (c : Bool) : Sum n where
  res := BitVec.ofInt n ((a.toNat : Int) - b.toNat - c.toNat)
  cf := a.toNat < b.toNat + c.toNat
  af := a.toNat % 16 < b.toNat % 16 + c.toNat
  of := a.msb != b.msb && (BitVec.ofInt n ((a.toNat : Int) - b.toNat - c.toNat)).msb != a.msb

/-- The six status flags of an addition or subtraction (41 R117, R120 to R129). -/
def Flags.setSum {n : Nat} (f : Flags) (x : Sum n) : Flags :=
  { f.setSzp x.res with of := x.of, af := x.af, cf := x.cf }

/-- The same without CF: INC and DEC (41 R122, R127). -/
def Flags.setSumKeepCf {n : Nat} (f : Flags) (x : Sum n) : Flags :=
  { f.setSzp x.res with of := x.of, af := x.af }

/-- Flags of the bitwise operations: CF and OF 0, SF ZF PF from the result, AF unknown (42 R141). -/
def Flags.setLogic {n : Nat} (f any : Flags) (r : BitVec n) : Flags :=
  { f.setSzp r with of := false, af := any.af, cf := false }

/-! ### Two-operand operations -/

/-- The nine operations that have the forms RMR, IRM and IACC (30_encoding.md R71 to R73). -/
inductive BinOp where
  | add | adc | sub | sbb | cmp | and | test | or | xor
  deriving DecidableEq, Repr

/-- The bitwise operations leave AF unknown, so they draw a free value (42 R141). -/
def BinOp.draws : BinOp → Bool
  | .add | .adc | .sub | .sbb | .cmp => false
  | .and | .test | .or | .xor => true

/-- CMP and TEST write no operand (41 R129, 42 R151). -/
def BinOp.writesBack : BinOp → Bool
  | .add | .adc | .sub | .sbb | .and | .or | .xor => true
  | .cmp | .test => false

/-- Result and flags of a two-operand operation, `a` the destination operand and `b` the source (41 R120, R121, R125,
R126, R129; 42 R150 to R153). -/
def BinOp.eval {n : Nat} (op : BinOp) (a b : BitVec n) (f any : Flags) : BitVec n × Flags :=
  match op with
  | .add => ((addN a b false).res, f.setSum (addN a b false))
  | .adc => ((addN a b f.cf).res, f.setSum (addN a b f.cf))
  | .sub => ((subN a b false).res, f.setSum (subN a b false))
  | .sbb => ((subN a b f.cf).res, f.setSum (subN a b f.cf))
  | .cmp => ((subN a b false).res, f.setSum (subN a b false))
  | .and => (a &&& b, f.setLogic any (a &&& b))
  | .test => (a &&& b, f.setLogic any (a &&& b))
  | .or => (a ||| b, f.setLogic any (a ||| b))
  | .xor => (a ^^^ b, f.setLogic any (a ^^^ b))

/-! ### Shifts and rotates -/

/-- The seven shifts and rotates (42_logic.md R140). -/
inductive ShiftOp where
  | shl | shr | sar | rol | ror | rcl | rcr
  deriving DecidableEq, Repr

/-- The shifts write SF ZF PF and leave AF unknown; the rotates write OF and CF only (10 R34). -/
def ShiftOp.isShift : ShiftOp → Bool
  | .shl | .shr | .sar => true
  | .rol | .ror | .rcl | .rcr => false

/-- One bit as a value of n bits. -/
def bitAt (n i : Nat) (c : Bool) : BitVec n := (BitVec.ofBool c).setWidth n <<< i

/-- One one-bit step: the new value and CF (42 R143 to R149). -/
def ShiftOp.once {n : Nat} (op : ShiftOp) (x : BitVec n) (cf : Bool) : BitVec n × Bool :=
  match op with
  | .shl => (x <<< 1, x.msb)
  | .shr => (x >>> 1, x.getLsbD 0)
  | .sar => (x >>> 1 ||| bitAt n (n - 1) x.msb, x.getLsbD 0)
  | .rol => (x <<< 1 ||| bitAt n 0 x.msb, x.msb)
  | .ror => (x >>> 1 ||| bitAt n (n - 1) (x.getLsbD 0), x.getLsbD 0)
  | .rcl => (x <<< 1 ||| bitAt n 0 cf, x.msb)
  | .rcr => (x >>> 1 ||| bitAt n (n - 1) cf, x.getLsbD 0)

/-- `count` one-bit steps (42 R140). -/
def ShiftOp.times {n : Nat} (op : ShiftOp) : Nat → BitVec n → Bool → BitVec n × Bool
  | 0, x, cf => (x, cf)
  | k + 1, x, cf => op.times k (op.once x cf).1 (op.once x cf).2

/-- OF after a one-bit step from `x0` to `x` with carry `cf` (42 R143 to R149). -/
def ShiftOp.overflow {n : Nat} (op : ShiftOp) (x0 x : BitVec n) (cf : Bool) : Bool :=
  match op with
  | .shl => x.msb ^^ cf
  | .shr => x0.msb
  | .sar => false
  | .rol => x.msb ^^ cf
  | .ror => x.getLsbD (n - 1) ^^ x.getLsbD (n - 2)
  | .rcl => x.msb ^^ cf
  | .rcr => x.getLsbD (n - 1) ^^ x.getLsbD (n - 2)

/-- Flags after `count` > 0 steps (42 R140, R143 to R149): OF is defined for count 1 only. -/
def ShiftOp.flags {n : Nat} (op : ShiftOp) (count : Nat) (x0 x : BitVec n) (cf : Bool) (f any : Flags) : Flags :=
  let g := { f with cf := cf, of := if count = 1 then op.overflow x0 x cf else any.of }
  if op.isShift then { g.setSzp x with af := any.af } else g

/-! ### Multiplication, adjusts -/

/-- CF = OF = `sig`; SF ZF AF PF unknown (41 R132, R133). -/
def Flags.setMul (f any : Flags) (sig : Bool) : Flags :=
  { f with of := sig, cf := sig, sf := any.sf, zf := any.zf, af := any.af, pf := any.pf }

/-- All six status flags unknown (41 R135, R136; 60 R231). -/
def Flags.setUnknown (f any : Flags) : Flags :=
  { f with of := any.of, sf := any.sf, zf := any.zf, af := any.af, pf := any.pf, cf := any.cf }

/-- AAA and AAS: AF and CF written, OF SF ZF PF unknown (41 R123, R130). -/
def Flags.setAscii (f any : Flags) (adjusted : Bool) : Flags :=
  { f with of := any.of, sf := any.sf, zf := any.zf, af := adjusted, pf := any.pf, cf := adjusted }

/-- AAM and AAD: SF ZF PF from AL, OF AF CF unknown (41 R134, R137). -/
def Flags.setBase (f any : Flags) (al : Byte) : Flags :=
  { f.setSzp al with of := any.of, af := any.af, cf := any.cf }

/-- DAA and DAS: SF ZF PF from AL, AF and CF written, OF unknown (41 R124, R131). -/
def Flags.setDecimal (f any : Flags) (al : Byte) (af cf : Bool) : Flags :=
  { f.setSzp al with of := any.of, af := af, cf := cf }

end Sys2Proof.Machine
end

