-- ==== Sys2Proof/Machine/Ops.lean ====
section
/-! DEFINITION. The named operations over memory, the stack, the ports, free values and control state; the interrupt sequence
and the return from it; what happens at an instruction boundary and at RESET. -/

namespace Sys2Proof.Machine

/-! ### Memory -/

/-- The low byte of a word. -/
def loByte (v : Word) : Byte := v.extractLsb' 0 8

/-- The high byte of a word. -/
def hiByte (v : Word) : Byte := v.extractLsb' 8 8

/-- Physical address formation: (s * 16 + off) mod 2^20 (20_memory.md R41). -/
def phys (seg off : Word) : Nat :=
  (seg.toNat * 2 ^ Config.segShift + off.toNat) % Config.memBytes

/-- The byte at a physical address (20 R43). -/
def Memory.read : Memory → Nat → Byte
  | [], _ => unlistedByte
  | (k, v) :: rest, a => if a = k then v else Memory.read rest a

/-- Memory with the byte `b` at address `a`, in canonical form (20 R43): the value an unlisted address reads as is not
listed. -/
def Memory.write : Memory → Nat → Byte → Memory
  | [], a, b => if b = unlistedByte then [] else [(a, b)]
  | (k, v) :: rest, a, b =>
    if a < k then (if b = unlistedByte then (k, v) :: rest else (a, b) :: (k, v) :: rest)
    else if a = k then (if b = unlistedByte then rest else (a, b) :: rest)
    else (k, v) :: Memory.write rest a b

/-- The addresses of the bytes that may already be in the prefetch queue: the `PREFETCH_QUEUE_BYTES` bytes that follow the
instruction's last byte (20 R54; IP is the offset of the next instruction, 10 R24). At the boundary of an unfinished WAIT, whose
IP is set back, they are the first bytes of the WAIT and what follows: DESIGN CHOICE, log 13. -/
def State.prefetchWindow (s : State) : List Nat :=
  (List.range Config.prefetchQueueBytes).map fun k => phys s.seg.cs (s.ip + BitVec.ofNat 16 k)

/-- Store a byte at a physical address; a store inside the prefetch window is remembered (20 R43, R54). -/
def State.storeByte (s : State) (a : Nat) (b : Byte) : State :=
  { s with
    mem := s.mem.write a b
    staleCode := if s.prefetchWindow.contains a then a :: s.staleCode else s.staleCode }

/-- `ReadSeg(seg, off, 1)` (20 R44). -/
def State.readByte (s : State) (seg off : Word) : Byte := s.mem.read (phys seg off)

/-- `ReadSeg(seg, off, 2)`: the second byte at (off + 1) mod 2^16 of the same segment (20 R44). -/
def State.readWord (s : State) (seg off : Word) : Word :=
  s.readByte seg (off + 1) ++ s.readByte seg off

/-- `WriteSeg(seg, off, 1, v)` (20 R44). -/
def State.writeByte (s : State) (seg off : Word) (v : Byte) : State := s.storeByte (phys seg off) v

/-- `WriteSeg(seg, off, 2, v)`: the low byte first (20 R44). -/
def State.writeWord (s : State) (seg off : Word) (v : Word) : State :=
  (s.writeByte seg off (loByte v)).writeByte seg (off + 1) (hiByte v)

/-- `MemRead(addr, 2)` at a physical address (20 R43). -/
def Memory.readWordPhys (m : Memory) (a : Nat) : Word :=
  m.read ((a + 1) % Config.memBytes) ++ m.read a

/-! ### Single fields -/

/-- IP (10 R24). -/
def State.setIp (s : State) (v : Word) : State := { s with ip := v }

/-- FLAGS (10 R25). -/
def State.setFlags (s : State) (f : Flags) : State := { s with flags := f }

/-- SP (10 R22). -/
def State.setSp (s : State) (v : Word) : State := { s with gpr := { s.gpr with sp := v } }

/-- CS (10 R23). -/
def State.setCs (s : State) (v : Word) : State := { s with seg := { s.seg with cs := v } }

/-! ### Free values and ports -/

/-- The next free value (00 R12 `any`, 92 D10): each draw has an index of its own. Log 5. -/
def State.freeValue (s : State) : Word := Config.freeWord s.freeCount

/-- The state after one draw. -/
def State.drawn (s : State) : State := { s with freeCount := s.freeCount + 1 }

/-- A free FLAGS value: each flag the spec marks `?` takes its bit from it (00 R9). -/
def State.freeFlags (s : State) : Flags := Flags.ofImage s.freeValue

/-- The platform's next answer to a port read: the host's, or a free value when the host gives none (20 R48). Log 8. -/
def State.portByte (s : State) : Byte :=
  match s.portIn with
  | b :: _ => b
  | [] => loByte s.freeValue

/-- The state after one such answer. -/
def State.portTaken (s : State) : State :=
  match s.portIn with
  | _ :: rest => { s with portIn := rest }
  | [] => s.drawn

/-- Record a port access (20 R48). -/
def State.logIo (s : State) (e : IoEvent) : State := { s with io := s.io ++ [e] }

/-! ### Control transfer and the stack -/

/-- A taken transfer of control to `ip`: bytes fetched ahead are discarded (44_control_transfer.md R170, 20 R54). -/
def State.jump (s : State) (ip : Word) : State := { s with ip := ip, staleCode := [] }

/-- A taken intersegment transfer (44 R170). -/
def State.jumpFar (s : State) (cs ip : Word) : State := (s.setCs cs).jump ip

/-- `push16(v)` (20 R56). -/
def State.push (s : State) (v : Word) : State :=
  (s.setSp (s.gpr.sp - 2)).writeWord s.seg.ss (s.gpr.sp - 2) v

/-- The word at SS:SP (20 R56). -/
def State.top (s : State) : Word := s.readWord s.seg.ss s.gpr.sp

/-- The state after `pop16()`; the value it returns is `top` (20 R56). -/
def State.popped (s : State) : State := s.setSp (s.gpr.sp + 2)

/-! ### Taking an interrupt and returning from it -/

/-- Physical address of entry `t` of the interrupt pointer table (60_exceptions.md R232). -/
def vectorAddr (t : Byte) : Nat := Config.vectorBase + Config.vectorEntryBytes * t.toNat

/-- IF and TF cleared, no other flag changed (60 R233). -/
def Flags.masked (f : Flags) : Flags := { f with ifl := false, tf := false }

/-- The interrupt sequence `Interrupt(t, ret)` (60 R233): push FLAGS, clear IF and TF, push CS, push the saved offset, load
IP and CS from entry `t`, end a halt, discard the bytes fetched ahead. Every interrupt of the machine is this one. -/
def State.interrupt (s : State) (t : Byte) (ret : Word) : State :=
  let s1 := (s.push s.flags.image).setFlags s.flags.masked
  let s2 := (s1.push s1.seg.cs).push ret
  let s3 := s2.jumpFar (s2.mem.readWordPhys (vectorAddr t + 2)) (s2.mem.readWordPhys (vectorAddr t))
  { s3 with halted := false }

/-- Interrupt return: pop IP, CS, FLAGS, the X bits discarded (44 R208, 60 R240). -/
def State.interruptReturn (s : State) : State :=
  let s1 := s.popped
  let s2 := s1.popped
  (s2.popped.jumpFar s1.top s.top).setFlags (Flags.ofImage s2.top)

/-- The divide error (60 R231): the result registers and the six status flags have been left to free values by the caller;
the saved offset is chosen by `DIVERR_RETURN_NEXT`. -/
def State.divideError (s : State) : State :=
  s.interrupt 0 (if Config.diverrReturnNext then s.ip else s.startIp)

/-! ### The host's inputs and the instruction boundary -/

/-- What the host presents in every step once `inputs` is used up: nothing, with TEST at the level it leaves it at
(45 R218, 70 R263). Log 6. -/
def State.restInput (s : State) : HostInput := { HostInput.quiet with test := s.testLevel }

/-- What the host presents in this step (60 R236). Log 6. -/
def State.input (s : State) : HostInput :=
  match s.inputs with
  | h :: _ => h
  | [] => s.restInput

/-- The NMI latch once this boundary's edge is seen (60 R236). -/
def State.nmiNow (s : State) : Bool := s.nmiPending || s.input.nmiEdge

/-- The type of the maskable interrupt accepted now, if any: INTR active and IF = 1 (60 R236). -/
def State.intrNow (s : State) : Option Byte := if s.flags.ifl then s.input.intr else none

/-- An external interrupt is to be taken here: NMI, or INTR with IF = 1 (60 R234, R236). -/
def State.externalDue (s : State) : Bool := s.nmiNow || s.intrNow.isSome

/-- Memory and the record of stores once the writes of the other agents in this record have landed, in their order (20 R51).
R54 speaks of the program's own stores only; that such a write is remembered inside the prefetch window like them, and that the
window is then measured from IP at the boundary, which after an unfinished WAIT is the WAIT's first byte, is a DESIGN CHOICE
(log 13); so is what follows from it for a WAIT longer than the window: a byte of it past the sixth is not remembered, and the
next look fetches it as written. -/
def State.agentsWrite (s : State) : State :=
  s.input.writes.foldl (fun t c => t.storeByte (c.1 % Config.memBytes) c.2) s

/-- The host's records after this one when LOCK keeps the other agents off the bus: what they were to write waits for the next
boundary (20 R53, 45 R220). Log 13. -/
def State.heldInputs (s : State) : List HostInput :=
  match s.input.writes, s.inputs.tail with
  | [], rest => rest
  | held, [] => [{ s.restInput with writes := held }]
  | held, h :: rest => { h with writes := held ++ h.writes } :: rest

/-- The boundary has passed: its record is used up, its NMI edge latched (60 R236), and the writes of the other agents have
landed, unless LOCK is asserted (20 R51, R53). -/
def State.pastBoundary (s : State) : State :=
  { s with
    mem := if s.pfx.lock then s.mem else s.agentsWrite.mem
    staleCode := if s.pfx.lock then s.staleCode else s.agentsWrite.staleCode
    inputs := if s.pfx.lock then s.heldInputs else s.inputs.tail
    nmiPending := s.nmiNow }

/-- The external interrupt of the boundary, NMI before INTR (60 R234). -/
def State.takeExternal (s : State) : State :=
  if s.nmiNow then { s.pastBoundary with nmiPending := false }.interrupt 2 s.ip
  else
    match s.intrNow with
    | some t => s.pastBoundary.interrupt t s.ip
    | none => s.pastBoundary

/-- The single-step trap, after an external interrupt if there was one: TF was 1 when the instruction began and the
instruction is over (60 R234, R238; 45 R218 for an unfinished WAIT, log 11). -/
def State.takeTrap (s : State) : State :=
  if s.tfAtStart && !s.waiting then s.interrupt 1 s.ip else s

/-- The reset sequence (70_reset_and_hazards.md R260): the general registers take free values, memory and the I/O devices are
unchanged. -/
def State.resetSequence (s : State) : State :=
  let free := fun k => Config.freeWord (s.freeCount + k)
  { State.reset with
    gpr := ⟨free 0, free 1, free 2, free 3, free 4, free 5, free 6, free 7⟩
    mem := s.mem
    inputs := s.inputs
    testLevel := s.testLevel
    portIn := s.portIn
    io := s.io
    freeCount := s.freeCount + 8 }

/-- The bytes at the physical addresses `l` take free values: what an access that RESET aborts may leave in memory
(70 R260). Log 7. -/
def State.scramble (s : State) (l : List Nat) : State :=
  l.foldl (fun t a => t.drawn.storeByte a (loByte t.freeValue)) s

/-- The physical addresses of the bytes that pushing `n` words stores to (20 R56). -/
def State.pushBytes (s : State) (n : Nat) : List Nat :=
  (List.range (2 * n)).map fun k => phys s.seg.ss (s.gpr.sp - BitVec.ofNat 16 (k + 1))

/-- How many words the interrupts recognised at this boundary push: three each (60 R233, R234). -/
def State.wordsDue (s : State) : Nat :=
  if s.intInhibit then 0
  else (if s.externalDue then 3 else 0) + (if s.tfAtStart && !s.waiting then 3 else 0)

/-- The instruction has come to its boundary: its prefixes are consumed (45 R220, R221) and the first instruction after reset
has been completed (93 U15). A WAIT that has to look again is not over: LOCK stays asserted through the boundary between two
looks (45 R218, R220; DEDUCED, log 11), and so through an interrupt sequence that leaves the WAIT there, which the spec does not
say (DESIGN CHOICE, log 11). A HLT is over at its own boundary, so that LOCK before it ends there and does not last through the
halt, on which the spec is silent (45 R217, 60 R234; DESIGN CHOICE, log 11). -/
def State.endInstr (s : State) : State :=
  { s with
    pfx := { PrefixState.none with lock := s.pfx.lock && s.waiting }
    justReset := s.justReset && s.waiting }

/-- RESET is seen: whatever instruction is in progress is aborted and LOCK with it, this record is used up, an NMI edge in it
is lost (93 U15), and the machine resets (70 R260). -/
def State.takeReset (s : State) : State := { s with pfx := PrefixState.none }.pastBoundary.resetSequence

/-- An instruction that RESET aborts (70 R260): the bytes `l` it would have stored to are left open; whether the port access
recorded in `t`, the state it would have led to, was made is left open; then the machine resets. Log 7. -/
def State.abort (s t : State) (l : List Nat) : State :=
  let s1 := s.scramble l
  let made := s1.freeValue.getLsbD 0
  { s1.drawn with portIn := if made then t.portIn else s.portIn, io := if made then t.io else s.io }.takeReset

/-- The instruction boundary (60 R234): nothing is recognised when it is inhibited (R237). RESET at the boundary aborts the
interrupt sequences begun there; when the host's next record holds RESET at or after the start, a repetition has ended for
it: the boundary is not looked at and the next step resets (70 R260, log 7). -/
def State.boundary (s : State) : State :=
  match s.input.reset with
  | .inactive => if s.intInhibit then s.pastBoundary else s.takeExternal.takeTrap
  | .atBoundary => (s.pastBoundary.scramble (s.pushBytes s.wordsDue)).resetSequence
  | .atStart => s
  | .inInstr => s

/-- RESET is active when the next step begins. -/
def State.resetNext (s : State) : State :=
  { s with inputs := { s.input with reset := .atStart } :: s.inputs.tail }

/-- An instruction begins (60 R234): `tf_at_start` is TF, the boundary is not inhibited yet, no prefix has been seen, and
its first byte is the one at IP. -/
def State.beginInstr (s : State) : State :=
  { s with tfAtStart := s.flags.tf, intInhibit := false, waiting := false, startIp := s.ip, pfx := PrefixState.none }

/-- A step of the halted machine: only the external checks of the boundary are made (60 R234). -/
def State.idle (s : State) : State :=
  { s with tfAtStart := false, intInhibit := false, waiting := false, pfx := PrefixState.none }

end Sys2Proof.Machine
end

