-- ==== Sys2Proof/Machine/Operands.lean ====
section
/-! DEFINITION. Operands: registers by code and width, segment registers, effective addresses, r/m operands, immediates and
accumulators; and the shared shapes of the instructions that read and write them. -/

namespace Sys2Proof.Machine

/-! ### Registers -/

/-- `reg16[i]` (10_state.md R20). -/
def Gpr.get (g : Gpr) : RegField → Word
  | .axAl => g.ax
  | .cxCl => g.cx
  | .dxDl => g.dx
  | .bxBl => g.bx
  | .spAh => g.sp
  | .bpCh => g.bp
  | .siDh => g.si
  | .diBh => g.di

/-- `reg16[i] <- v` (10 R20). -/
def Gpr.set (g : Gpr) (r : RegField) (v : Word) : Gpr :=
  match r with
  | .axAl => { g with ax := v }
  | .cxCl => { g with cx := v }
  | .dxDl => { g with dx := v }
  | .bxBl => { g with bx := v }
  | .spAh => { g with sp := v }
  | .bpCh => { g with bp := v }
  | .siDh => { g with si := v }
  | .diBh => { g with di := v }

/-- `reg8[i]`: a half of AX, CX, DX or BX (10 R21). -/
def Gpr.getByte (g : Gpr) : RegField → Byte
  | .axAl => loByte g.ax
  | .cxCl => loByte g.cx
  | .dxDl => loByte g.dx
  | .bxBl => loByte g.bx
  | .spAh => hiByte g.ax
  | .bpCh => hiByte g.cx
  | .siDh => hiByte g.dx
  | .diBh => hiByte g.bx

/-- `reg8[i] <- v`: the other half is unchanged (10 R21). -/
def Gpr.setByte (g : Gpr) (r : RegField) (v : Byte) : Gpr :=
  match r with
  | .axAl => { g with ax := hiByte g.ax ++ v }
  | .cxCl => { g with cx := hiByte g.cx ++ v }
  | .dxDl => { g with dx := hiByte g.dx ++ v }
  | .bxBl => { g with bx := hiByte g.bx ++ v }
  | .spAh => { g with ax := v ++ loByte g.ax }
  | .bpCh => { g with cx := v ++ loByte g.cx }
  | .siDh => { g with dx := v ++ loByte g.dx }
  | .diBh => { g with bx := v ++ loByte g.bx }

/-- The general registers replaced. -/
def State.setGpr (s : State) (g : Gpr) : State := { s with gpr := g }

/-- `reg16[i] <- v`. -/
def State.setReg (s : State) (r : RegField) (v : Word) : State := s.setGpr (s.gpr.set r v)

/-- `reg8[i] <- v`. -/
def State.setByteReg (s : State) (r : RegField) (v : Byte) : State := s.setGpr (s.gpr.setByte r v)

/-- `sreg[i]` (10 R23). -/
def SegRegs.get (g : SegRegs) : SReg → Word
  | .es => g.es
  | .cs => g.cs
  | .ss => g.ss
  | .ds => g.ds

/-- `sreg[i] <- v` (10 R23). -/
def SegRegs.set (g : SegRegs) (r : SReg) (v : Word) : SegRegs :=
  match r with
  | .es => { g with es := v }
  | .cs => { g with cs := v }
  | .ss => { g with ss := v }
  | .ds => { g with ds := v }

/-- `sreg[i] <- v`. -/
def State.setSreg (s : State) (r : SReg) (v : Word) : State := { s with seg := s.seg.set r v }

/-- AL (10 R21). -/
def State.al (s : State) : Byte := s.gpr.getByte .axAl

/-- AH (10 R21). -/
def State.ah (s : State) : Byte := s.gpr.getByte .spAh

/-- CL (10 R21). -/
def State.cl (s : State) : Byte := s.gpr.getByte .cxCl

/-! ### Effective addresses -/

/-- The register part of an effective address (30_encoding.md R63). -/
def State.eaBase (s : State) : EaBase → Word
  | .bxSi => s.gpr.bx + s.gpr.si
  | .bxDi => s.gpr.bx + s.gpr.di
  | .bpSi => s.gpr.bp + s.gpr.si
  | .bpDi => s.gpr.bp + s.gpr.di
  | .si => s.gpr.si
  | .di => s.gpr.di
  | .bp => s.gpr.bp
  | .bx => s.gpr.bx

/-- EA, the 16-bit offset of a memory operand; the sum wraps (30 R63, R64). -/
def State.ea (s : State) : MemOp → Word
  | .noDisp base => s.eaBase base
  | .direct a => a
  | .disp8 base d => s.eaBase base + d.signExtend 16
  | .disp16 base d => s.eaBase base + d

/-- The default segment of an effective-address base: SS where (BP) is in it (20_memory.md R42). -/
def EaBase.defaultSeg : EaBase → SReg
  | .bxSi | .bxDi | .si | .di | .bx => .ds
  | .bpSi | .bpDi | .bp => .ss

/-- The default segment of a memory operand: DS for the direct address (20 R42, 30 R63). -/
def MemOp.defaultSeg : MemOp → SReg
  | .noDisp base => EaBase.defaultSeg base
  | .direct _ => .ds
  | .disp8 base _ => EaBase.defaultSeg base
  | .disp16 base _ => EaBase.defaultSeg base

/-- The value of the override segment register if an override precedes, else of the default (20 R42, 45 R221). -/
def State.dataSeg (s : State) (dflt : SReg) : Word := s.seg.get (s.pfx.seg.getD dflt)

/-- `ea_seg` (20 R42). -/
def State.eaSeg (s : State) (m : MemOp) : Word := s.dataSeg (MemOp.defaultSeg m)

/-! ### Places -/

/-- Where an operand lies: a register, or a segment value and an offset. -/
inductive Place where
  | reg (r : RegField)
  | mem (seg off : Word)
  deriving DecidableEq, Repr

/-- The place of an r/m operand, computed from the register values at the start of the instruction (30 R62, 20 R57 (b)). -/
def State.place (s : State) : RM → Place
  | .reg r => .reg r
  | .mem m => .mem (s.eaSeg m) (s.ea m)

/-- The operand at a place, of width w (30 R62 `rm_read`). -/
def State.read (s : State) (w : Width) (p : Place) : BitVec w.bits :=
  match w, p with
  | .byte, .reg r => s.gpr.getByte r
  | .word, .reg r => s.gpr.get r
  | .byte, .mem sg off => s.readByte sg off
  | .word, .mem sg off => s.readWord sg off

/-- Write the operand at a place, of width w (30 R62 `rm_write`). -/
def State.write (s : State) (w : Width) (p : Place) (v : BitVec w.bits) : State :=
  match w, p with
  | .byte, .reg r => s.setByteReg r v
  | .word, .reg r => s.setReg r v
  | .byte, .mem sg off => s.writeByte sg off v
  | .word, .mem sg off => s.writeWord sg off v

/-- The physical addresses of the bytes of a place: those a write to it stores to (20 R44). -/
def Place.bytes (w : Width) : Place → List Nat
  | .reg _ => []
  | .mem sg off =>
    match w with
    | .byte => [phys sg off]
    | .word => [phys sg off, phys sg (off + 1)]

/-- The accumulator: AL (w = 0) or AX (w = 1) (00 R11). -/
def accPlace : Place := .reg .axAl

/-! ### Immediates and counts -/

/-- The value of an immediate by w (30 R67). -/
def Imm.value : (i : Imm) → BitVec i.width.bits
  | .byte v => v
  | .word v => v

/-- The value of an immediate by s:w; for s:w = 11 the byte is sign-extended (30 R68). -/
def SwImm.value : (i : SwImm) → BitVec i.width.bits
  | .s0w0 v => v
  | .s0w1 v => v
  | .s1w0 v => v
  | .s1w1 v => v.signExtend 16

/-- The count of a shift or rotate (42_logic.md R140). -/
def State.shiftCount (s : State) : CountSel → Nat
  | .one => 1
  | .cl => (s.cl &&& Config.shiftCountMask).toNat

/-! ### Shared shapes -/

/-- A two-operand operation on the place `dst` with source value `b`: one read, the flags, one write (30 R71 to R73). -/
def State.binary (s : State) (op : BinOp) (w : Width) (dst : Place) (b : BitVec w.bits) : State :=
  let r := op.eval (s.read w dst) b s.flags s.freeFlags
  let s1 := (if op.draws then s.drawn else s).setFlags r.2
  if op.writesBack then s1.write w dst r.1 else s1

/-- Form RMR (30 R71). -/
def State.binaryRmReg (s : State) (op : BinOp) (d : Dir) (w : Width) (reg : RegField) (rm : RM) : State :=
  match d with
  | .toReg => s.binary op w (.reg reg) (s.read w (s.place rm))
  | .fromReg => s.binary op w (s.place rm) (s.read w (.reg reg))

/-- Form IRM with an immediate by w (30 R67, R72). -/
def State.binaryRmImm (s : State) (op : BinOp) (rm : RM) (imm : Imm) : State :=
  s.binary op imm.width (s.place rm) (Imm.value imm)

/-- Form IRM with an immediate by s:w (30 R68, R72). -/
def State.binaryRmSwImm (s : State) (op : BinOp) (rm : RM) (imm : SwImm) : State :=
  s.binary op imm.width (s.place rm) (SwImm.value imm)

/-- Form IACC (30 R73). -/
def State.binaryAccImm (s : State) (op : BinOp) (imm : Imm) : State :=
  s.binary op imm.width accPlace (Imm.value imm)

/-- INC and DEC: `up` adds 1, otherwise subtracts 1; CF is not written (41 R122, R127). -/
def State.incDec (s : State) (up : Bool) (w : Width) (dst : Place) : State :=
  let a := s.read w dst
  let x := if up then addN a 1 false else subN a 1 false
  (s.setFlags (s.flags.setSumKeepCf x)).write w dst x.res

/-- A shift or rotate: the operand is read once and written once; with count 0 nothing changes (42 R140). -/
def State.shift (s : State) (op : ShiftOp) (v : CountSel) (w : Width) (rm : RM) : State :=
  let count := s.shiftCount v
  if count = 0 then s
  else
    let x0 := s.read w (s.place rm)
    let r := op.times count x0 s.flags.cf
    (s.drawn.setFlags (op.flags count x0 r.1 r.2 s.flags s.freeFlags)).write w (s.place rm) r.1

/-- A conditional within-segment transfer with a one-byte displacement (44 R170, R184). -/
def State.jumpIf (s : State) (cond : Bool) (disp : Byte) : State :=
  if cond then s.jump (s.ip + disp.signExtend 16) else s

/-- CX is decremented; no flag is written (44 R201, 43 R161). -/
def State.decCx (s : State) : State := s.setReg .cxCl (s.gpr.cx - 1)

/-! ### Ports, products, quotients -/

/-- `acc <- IoRead(port, n/8)`: the low byte from `port`, the high byte from `port` + 1 (20 R48). Log 8. -/
def State.inPort (s : State) (port : Word) (w : Width) : State :=
  let s0 := s.logIo (.read port w)
  match w with
  | .byte => s0.portTaken.write .byte accPlace s0.portByte
  | .word => s0.portTaken.portTaken.write .word accPlace (s0.portTaken.portByte ++ s0.portByte)

/-- `IoWrite(port, n/8, acc)`, recorded as an event (20 R48). -/
def State.outPort (s : State) (port : Word) (w : Width) : State :=
  s.logIo (.write port w ((s.read w accPlace).setWidth 16))

/-- A word access at the last port, 0xFFFF, has no meaning (20 R48, 92 D25). -/
def portRefused (port : Word) (w : Width) : Bool := port.toNat + 1 == Config.ioPorts && w == .word

/-- The double-width accumulator: AX (w = 0) or DX:AX (w = 1) (41 R132, R135). -/
def State.accDouble (s : State) : (w : Width) → BitVec (w.bits + w.bits)
  | .byte => s.gpr.ax
  | .word => s.gpr.dx ++ s.gpr.ax

/-- The product into AX (w = 0) or DX:AX (w = 1) (41 R132, R133). -/
def State.setAccDouble (s : State) (w : Width) (v : BitVec (w.bits + w.bits)) : State :=
  match w with
  | .byte => s.setReg .axAl v
  | .word => (s.setReg .dxDl (v.extractLsb' 16 16)).setReg .axAl (v.extractLsb' 0 16)

/-- Quotient and remainder into AL, AH (w = 0) or AX, DX (w = 1) (41 R135, R136). -/
def State.setQuotRem (s : State) (w : Width) (q r : BitVec w.bits) : State :=
  match w with
  | .byte => (s.setByteReg .axAl q).setByteReg .spAh r
  | .word => (s.setReg .axAl q).setReg .dxDl r

/-- A divide that fails (60 R231): the six status flags, AX and for a word divide DX take free values, then the divide
error is taken. -/
def State.divideFails (s : State) (w : Width) : State :=
  let s1 := s.drawn.setFlags (s.flags.setUnknown s.freeFlags)
  let s2 := s1.drawn.setReg .axAl s1.freeValue
  match w with
  | .byte => s2.divideError
  | .word => (s2.drawn.setReg .dxDl s2.freeValue).divideError

/-- A divide that succeeds: quotient and remainder written, the six status flags unknown (41 R135, R136). -/
def State.divideGives (s : State) (w : Width) (q r : BitVec w.bits) : State :=
  (s.drawn.setFlags (s.flags.setUnknown s.freeFlags)).setQuotRem w q r

/-- The smallest quotient IDIV accepts, QMIN (41 R118). -/
def idivMin (n : Nat) : Int :=
  if Config.idivSymmetricRange then -(2 ^ (n - 1) - 1 : Int) else -(2 ^ (n - 1) : Int)

/-! ### String elements -/

/-- delta: +k when DF = 0, -k when DF = 1 (43 R160). -/
def State.delta (s : State) (w : Width) : Word :=
  match s.flags.df, w with
  | false, .byte => 1
  | false, .word => 2
  | true, .byte => -1
  | true, .word => -2

/-- SI stepped (43 R160). -/
def State.stepSi (s : State) (w : Width) : State := s.setReg .siDh (s.gpr.si + s.delta w)

/-- DI stepped (43 R160). -/
def State.stepDi (s : State) (w : Width) : State := s.setReg .diBh (s.gpr.di + s.delta w)

/-- The source element, at SI in DS or the override segment (43 R160). -/
def State.stringSrc (s : State) : Place := .mem (s.dataSeg .ds) s.gpr.si

/-- The destination element, at ES:DI whatever the prefixes (43 R160). -/
def State.stringDst (s : State) : Place := .mem s.seg.es s.gpr.di

/-- A repeated string instruction, at most `n` elements still to do, n = CX (43 R161). After an element CX is decremented;
the repetition ends when `stop` says so or CX is 0; otherwise the boundary between two elements is looked at: an interrupt
that is due ends the step with IP at the first prefix byte (refused with two or more prefix bytes). RESET ends it too: at this
boundary, or before or in the next element, whose destination bytes `dst` an element in progress leaves open (70 R260,
log 7). That RESET at the boundary goes before the refusal of an interrupt due there with two or more prefix bytes is a DESIGN
CHOICE (log 7). -/
def repeatString (elem : State → State) (dst : State → List Nat) (stop : State → Bool) :
    Nat → State → Host.Outcome State Fault Refusal
  | 0, s => .next s
  | n + 1, s =>
    let s1 := (elem s).decCx
    if stop s1 || s1.gpr.cx == 0 then .next s1
    else if s1.input.reset == .atBoundary then .next (s1.setIp s1.startIp)
    else if s1.externalDue || s1.tfAtStart then
      if s1.pfx.count < 2 then .next (s1.setIp s1.startIp) else .refused .repInterruptedManyPrefixes
    else
      match s1.pastBoundary.input.reset with
      | .atStart => .next (s1.pastBoundary.setIp s1.startIp)
      | .inInstr => .next ((s1.pastBoundary.scramble (dst s1)).resetNext.setIp s1.startIp)
      | .inactive => repeatString elem dst stop n s1.pastBoundary
      | .atBoundary => repeatString elem dst stop n s1.pastBoundary

/-- A string instruction: one element, or a repetition when REP precedes (43 R161). `usesZf` holds for CMPS and SCAS, which
also end on ZF different from z; `dst` gives the bytes one element stores to. -/
def State.string (s : State) (usesZf : Bool) (dst : State → List Nat) (elem : State → State) :
    Host.Outcome State Fault Refusal :=
  match s.pfx.rep with
  | none => .next (elem s)
  | some z => repeatString elem dst (fun t => usesZf && t.flags.zf != z) s.gpr.cx.toNat s

end Sys2Proof.Machine
end

