-- ==== Sys2Proof/Machine/Arithmetic.lean ====
section
/-! DEFINITION. The meanings of the arithmetic instructions (41_arithmetic.md). -/

namespace Sys2Proof.Machine

/-- ADD register/memory with register, form RMR (41 R120). -/
def execAddRmReg (d : Dir) (w : Width) (reg : RegField) (rm : RM) (s : State) : Host.Outcome State Fault Refusal :=
  .next (s.binaryRmReg .add d w reg rm)

/-- ADD immediate with register/memory, form IRM (41 R120). -/
def execAddRmImm (rm : RM) (imm : SwImm) (s : State) : Host.Outcome State Fault Refusal :=
  .next (s.binaryRmSwImm .add rm imm)

/-- ADD immediate with accumulator, form IACC (41 R120). -/
def execAddAccImm (imm : Imm) (s : State) : Host.Outcome State Fault Refusal :=
  .next (s.binaryAccImm .add imm)

/-- ADC register/memory with register, form RMR (41 R121). -/
def execAdcRmReg (d : Dir) (w : Width) (reg : RegField) (rm : RM) (s : State) : Host.Outcome State Fault Refusal :=
  .next (s.binaryRmReg .adc d w reg rm)

/-- ADC immediate with register/memory, form IRM (41 R121). -/
def execAdcRmImm (rm : RM) (imm : SwImm) (s : State) : Host.Outcome State Fault Refusal :=
  .next (s.binaryRmSwImm .adc rm imm)

/-- ADC immediate with accumulator, form IACC (41 R121). -/
def execAdcAccImm (imm : Imm) (s : State) : Host.Outcome State Fault Refusal :=
  .next (s.binaryAccImm .adc imm)

/-- INC register/memory (41 R122). -/
def execIncRm (w : Width) (rm : RM) (s : State) : Host.Outcome State Fault Refusal :=
  .next (s.incDec true w (s.place rm))

/-- INC register, 16 bits (41 R122). -/
def execIncReg (reg : RegField) (s : State) : Host.Outcome State Fault Refusal :=
  .next (s.incDec true .word (.reg reg))

/-- AAA: 6 added to AL and 1 to AH separately, when the low nibble is above 9 or AF is set (41 R123). -/
def execAaa (s : State) : Host.Outcome State Fault Refusal :=
  let adjust := 9 < s.al.toNat % 16 || s.flags.af
  let al := if adjust then s.al + 6 else s.al
  let ah := if adjust then s.ah + 1 else s.ah
  .next (((s.drawn.setFlags (s.flags.setAscii s.freeFlags adjust)).setByteReg .axAl (al &&& 0x0F)).setByteReg .spAh ah)

/-- DAA: the old AL and the old CF decide the second correction (41 R124). -/
def execDaa (s : State) : Host.Outcome State Fault Refusal :=
  let low := 9 < s.al.toNat % 16 || s.flags.af
  let high := 0x99 < s.al.toNat || s.flags.cf
  let al1 := if low then s.al + 6 else s.al
  let al2 := if high then al1 + 0x60 else al1
  .next ((s.drawn.setFlags (s.flags.setDecimal s.freeFlags al2 low high)).setByteReg .axAl al2)

/-- SUB register/memory with register, form RMR (41 R125). -/
def execSubRmReg (d : Dir) (w : Width) (reg : RegField) (rm : RM) (s : State) : Host.Outcome State Fault Refusal :=
  .next (s.binaryRmReg .sub d w reg rm)

/-- SUB immediate with register/memory, form IRM (41 R125). -/
def execSubRmImm (rm : RM) (imm : SwImm) (s : State) : Host.Outcome State Fault Refusal :=
  .next (s.binaryRmSwImm .sub rm imm)

/-- SUB immediate with accumulator, form IACC (41 R125). -/
def execSubAccImm (imm : Imm) (s : State) : Host.Outcome State Fault Refusal :=
  .next (s.binaryAccImm .sub imm)

/-- SBB register/memory with register, form RMR (41 R126). -/
def execSbbRmReg (d : Dir) (w : Width) (reg : RegField) (rm : RM) (s : State) : Host.Outcome State Fault Refusal :=
  .next (s.binaryRmReg .sbb d w reg rm)

/-- SBB immediate with register/memory, form IRM (41 R126). -/
def execSbbRmImm (rm : RM) (imm : SwImm) (s : State) : Host.Outcome State Fault Refusal :=
  .next (s.binaryRmSwImm .sbb rm imm)

/-- SBB immediate with accumulator, form IACC (41 R126). -/
def execSbbAccImm (imm : Imm) (s : State) : Host.Outcome State Fault Refusal :=
  .next (s.binaryAccImm .sbb imm)

/-- DEC register/memory (41 R127). -/
def execDecRm (w : Width) (rm : RM) (s : State) : Host.Outcome State Fault Refusal :=
  .next (s.incDec false w (s.place rm))

/-- DEC register, 16 bits (41 R127). -/
def execDecReg (reg : RegField) (s : State) : Host.Outcome State Fault Refusal :=
  .next (s.incDec false .word (.reg reg))

/-- NEG: 0 minus the operand (41 R128). -/
def execNeg (w : Width) (rm : RM) (s : State) : Host.Outcome State Fault Refusal :=
  let x := subN 0 (s.read w (s.place rm)) false
  .next ((s.setFlags (s.flags.setSum x)).write w (s.place rm) x.res)

/-- CMP register/memory with register, form RMR (41 R129). -/
def execCmpRmReg (d : Dir) (w : Width) (reg : RegField) (rm : RM) (s : State) : Host.Outcome State Fault Refusal :=
  .next (s.binaryRmReg .cmp d w reg rm)

/-- CMP immediate with register/memory, form IRM (41 R129). -/
def execCmpRmImm (rm : RM) (imm : SwImm) (s : State) : Host.Outcome State Fault Refusal :=
  .next (s.binaryRmSwImm .cmp rm imm)

/-- CMP immediate with accumulator, form IACC (41 R129). -/
def execCmpAccImm (imm : Imm) (s : State) : Host.Outcome State Fault Refusal :=
  .next (s.binaryAccImm .cmp imm)

/-- AAS: 6 taken from AL and 1 from AH separately (41 R130). -/
def execAas (s : State) : Host.Outcome State Fault Refusal :=
  let adjust := 9 < s.al.toNat % 16 || s.flags.af
  let al := if adjust then s.al - 6 else s.al
  let ah := if adjust then s.ah - 1 else s.ah
  .next (((s.drawn.setFlags (s.flags.setAscii s.freeFlags adjust)).setByteReg .axAl (al &&& 0x0F)).setByteReg .spAh ah)

/-- DAS: CF also when 6 was taken from an AL below 6 (41 R131). -/
def execDas (s : State) : Host.Outcome State Fault Refusal :=
  let low := 9 < s.al.toNat % 16 || s.flags.af
  let high := 0x99 < s.al.toNat || s.flags.cf
  let borrow := low && (s.flags.cf || s.al.toNat < 6)
  let al1 := if low then s.al - 6 else s.al
  let al2 := if high then al1 - 0x60 else al1
  .next ((s.drawn.setFlags (s.flags.setDecimal s.freeFlags al2 low (high || borrow))).setByteReg .axAl al2)

/-- MUL: CF = OF = the upper half is not 0 (41 R132). -/
def execMul (w : Width) (rm : RM) (s : State) : Host.Outcome State Fault Refusal :=
  let p := (s.read w accPlace).toNat * (s.read w (s.place rm)).toNat
  .next ((s.drawn.setFlags (s.flags.setMul s.freeFlags (2 ^ w.bits ≤ p))).setAccDouble w (BitVec.ofNat _ p))

/-- IMUL: CF = OF = the product does not fit n bits signed (41 R133). -/
def execImul (w : Width) (rm : RM) (s : State) : Host.Outcome State Fault Refusal :=
  let p := (s.read w accPlace).toInt * (s.read w (s.place rm)).toInt
  .next ((s.drawn.setFlags (s.flags.setMul s.freeFlags ((BitVec.ofInt w.bits p).toInt != p))).setAccDouble w
    (BitVec.ofInt _ p))

/-- AAM: AL divided by the second byte (0x0A); with `AAM_AAD_ANY_BASE` a base of 0 raises the divide error (41 R134). -/
def execAam (base : Byte) (s : State) : Host.Outcome State Fault Refusal :=
  if base == 0 then .next (s.divideFails .byte)
  else
    .next (((s.drawn.setFlags (s.flags.setBase s.freeFlags (s.al % base))).setByteReg .spAh (s.al / base)).setByteReg
      .axAl (s.al % base))

/-- DIV: divide error for divisor 0 or a quotient that does not fit (41 R118, R135). -/
def execDiv (w : Width) (rm : RM) (s : State) : Host.Outcome State Fault Refusal :=
  let d := (s.accDouble w).toNat
  let v := (s.read w (s.place rm)).toNat
  if v = 0 ∨ 2 ^ w.bits ≤ d / v then .next (s.divideFails w)
  else .next (s.divideGives w (BitVec.ofNat _ (d / v)) (BitVec.ofNat _ (d % v)))

/-- IDIV: truncation toward zero, the remainder has the dividend's sign; divide error for divisor 0 or a quotient outside
[QMIN, 2^(n-1) - 1] (41 R118, R136). -/
def execIdiv (w : Width) (rm : RM) (s : State) : Host.Outcome State Fault Refusal :=
  let d := (s.accDouble w).toInt
  let v := (s.read w (s.place rm)).toInt
  if v = 0 ∨ 2 ^ (w.bits - 1) - 1 < d.tdiv v ∨ d.tdiv v < idivMin w.bits then .next (s.divideFails w)
  else .next (s.divideGives w (BitVec.ofInt _ (d.tdiv v)) (BitVec.ofInt _ (d.tmod v)))

/-- AAD: AH times the second byte (0x0A) plus AL, in 8 bits (41 R137). -/
def execAad (base : Byte) (s : State) : Host.Outcome State Fault Refusal :=
  let al := s.ah * base + s.al
  .next (((s.drawn.setFlags (s.flags.setBase s.freeFlags al)).setByteReg .axAl al).setByteReg .spAh 0)

/-- CBW (41 R138). -/
def execCbw (s : State) : Host.Outcome State Fault Refusal := .next (s.setReg .axAl (s.al.signExtend 16))

/-- CWD (41 R139). -/
def execCwd (s : State) : Host.Outcome State Fault Refusal :=
  .next (s.setReg .dxDl (if s.gpr.ax.msb then 0xFFFF else 0x0000))

end Sys2Proof.Machine
end

