-- ==== Sys2Proof/Machine/ControlTransfer.lean ====
section
/-! DEFINITION. The meanings of the control transfer instructions (44_control_transfer.md). IP holds the offset of the next
instruction, IP_next (10_state.md R24). -/

namespace Sys2Proof.Machine

/-- CALL direct within segment (44 R171). -/
def execCallRel (disp : Word) (s : State) : Host.Outcome State Fault Refusal :=
  .next ((s.push s.ip).jump (s.ip + disp))

/-- CALL indirect within segment: the operand is read before the push (44 R172). -/
def execCallRm (rm : RM) (s : State) : Host.Outcome State Fault Refusal :=
  .next ((s.push s.ip).jump (s.read .word (s.place rm)))

/-- CALL direct intersegment: CS is pushed first (44 R173). -/
def execCallFar (off sg : Word) (s : State) : Host.Outcome State Fault Refusal :=
  .next (((s.push s.seg.cs).push s.ip).jumpFar sg off)

/-- CALL indirect intersegment: both words are read before either push (44 R174). -/
def execCallFarMem (m : MemOp) (s : State) : Host.Outcome State Fault Refusal :=
  .next (((s.push s.seg.cs).push s.ip).jumpFar (s.readWord (s.eaSeg m) (s.ea m + 2)) (s.readWord (s.eaSeg m) (s.ea m)))

/-- JMP direct within segment (44 R175). -/
def execJmpRel (disp : Word) (s : State) : Host.Outcome State Fault Refusal := .next (s.jump (s.ip + disp))

/-- JMP direct within segment-short (44 R176). -/
def execJmpShort (disp : Byte) (s : State) : Host.Outcome State Fault Refusal :=
  .next (s.jump (s.ip + disp.signExtend 16))

/-- JMP indirect within segment (44 R177). -/
def execJmpRm (rm : RM) (s : State) : Host.Outcome State Fault Refusal := .next (s.jump (s.read .word (s.place rm)))

/-- JMP direct intersegment (44 R178). -/
def execJmpFar (off sg : Word) (s : State) : Host.Outcome State Fault Refusal := .next (s.jumpFar sg off)

/-- JMP indirect intersegment (44 R179). -/
def execJmpFarMem (m : MemOp) (s : State) : Host.Outcome State Fault Refusal :=
  .next (s.jumpFar (s.readWord (s.eaSeg m) (s.ea m + 2)) (s.readWord (s.eaSeg m) (s.ea m)))

/-- RET within segment (44 R180). -/
def execRet (s : State) : Host.Outcome State Fault Refusal := .next (s.popped.jump s.top)

/-- RET within segment adding immediate to SP, after the pop (44 R181). -/
def execRetImm (data : Word) (s : State) : Host.Outcome State Fault Refusal :=
  .next ((s.popped.jump s.top).setSp (s.popped.gpr.sp + data))

/-- RET intersegment: IP is popped first, then CS (44 R182). -/
def execRetFar (s : State) : Host.Outcome State Fault Refusal :=
  .next (s.popped.popped.jumpFar s.popped.top s.top)

/-- RET intersegment adding immediate to SP (44 R183). -/
def execRetFarImm (data : Word) (s : State) : Host.Outcome State Fault Refusal :=
  .next ((s.popped.popped.jumpFar s.popped.top s.top).setSp (s.popped.popped.gpr.sp + data))

/-- JE/JZ: ZF = 1 (44 R184, R185). -/
def execJe (disp : Byte) (s : State) : Host.Outcome State Fault Refusal := .next (s.jumpIf s.flags.zf disp)

/-- JL/JNGE: SF != OF (90 C5) (44 R184, R186). -/
def execJl (disp : Byte) (s : State) : Host.Outcome State Fault Refusal := .next (s.jumpIf (s.flags.sf != s.flags.of) disp)

/-- JLE/JNG: SF != OF or ZF = 1 (90 C5) (44 R184, R187). -/
def execJle (disp : Byte) (s : State) : Host.Outcome State Fault Refusal := .next (s.jumpIf (s.flags.sf != s.flags.of || s.flags.zf) disp)

/-- JB/JNAE: CF = 1 (44 R184, R188). -/
def execJb (disp : Byte) (s : State) : Host.Outcome State Fault Refusal := .next (s.jumpIf s.flags.cf disp)

/-- JBE/JNA: CF = 1 or ZF = 1 (44 R184, R189). -/
def execJbe (disp : Byte) (s : State) : Host.Outcome State Fault Refusal := .next (s.jumpIf (s.flags.cf || s.flags.zf) disp)

/-- JP/JPE: PF = 1 (44 R184, R190). -/
def execJp (disp : Byte) (s : State) : Host.Outcome State Fault Refusal := .next (s.jumpIf s.flags.pf disp)

/-- JO: OF = 1 (44 R184, R191). -/
def execJo (disp : Byte) (s : State) : Host.Outcome State Fault Refusal := .next (s.jumpIf s.flags.of disp)

/-- JS: SF = 1 (44 R184, R192). -/
def execJs (disp : Byte) (s : State) : Host.Outcome State Fault Refusal := .next (s.jumpIf s.flags.sf disp)

/-- JNE/JNZ: ZF = 0 (44 R184, R193). -/
def execJne (disp : Byte) (s : State) : Host.Outcome State Fault Refusal := .next (s.jumpIf (!s.flags.zf) disp)

/-- JNL/JGE: SF = OF (44 R184, R194). -/
def execJnl (disp : Byte) (s : State) : Host.Outcome State Fault Refusal := .next (s.jumpIf (s.flags.sf == s.flags.of) disp)

/-- JNLE/JG: SF = OF and ZF = 0 (90 C3) (44 R184, R195). -/
def execJnle (disp : Byte) (s : State) : Host.Outcome State Fault Refusal := .next (s.jumpIf (s.flags.sf == s.flags.of && !s.flags.zf) disp)

/-- JNB/JAE: CF = 0 (44 R184, R196). -/
def execJnb (disp : Byte) (s : State) : Host.Outcome State Fault Refusal := .next (s.jumpIf (!s.flags.cf) disp)

/-- JNBE/JA: CF = 0 and ZF = 0 (44 R184, R197). -/
def execJnbe (disp : Byte) (s : State) : Host.Outcome State Fault Refusal := .next (s.jumpIf (!s.flags.cf && !s.flags.zf) disp)

/-- JNP/JPO: PF = 0 (44 R184, R198). -/
def execJnp (disp : Byte) (s : State) : Host.Outcome State Fault Refusal := .next (s.jumpIf (!s.flags.pf) disp)

/-- JNO: OF = 0 (44 R184, R199). -/
def execJno (disp : Byte) (s : State) : Host.Outcome State Fault Refusal := .next (s.jumpIf (!s.flags.of) disp)

/-- JNS: SF = 0 (44 R184, R200). -/
def execJns (disp : Byte) (s : State) : Host.Outcome State Fault Refusal := .next (s.jumpIf (!s.flags.sf) disp)

/-- LOOP: CX is decremented, then tested (44 R201). -/
def execLoop (disp : Byte) (s : State) : Host.Outcome State Fault Refusal :=
  .next (s.decCx.jumpIf (s.gpr.cx - 1 != 0) disp)

/-- LOOPZ/LOOPE (44 R202). -/
def execLoopz (disp : Byte) (s : State) : Host.Outcome State Fault Refusal :=
  .next (s.decCx.jumpIf (s.gpr.cx - 1 != 0 && s.flags.zf) disp)

/-- LOOPNZ/LOOPNE (44 R203). -/
def execLoopnz (disp : Byte) (s : State) : Host.Outcome State Fault Refusal :=
  .next (s.decCx.jumpIf (s.gpr.cx - 1 != 0 && !s.flags.zf) disp)

/-- JCXZ (44 R204). -/
def execJcxz (disp : Byte) (s : State) : Host.Outcome State Fault Refusal := .next (s.jumpIf (s.gpr.cx == 0) disp)

/-- INT type specified (44 R205). -/
def execInt (type : Byte) (s : State) : Host.Outcome State Fault Refusal := .next (s.interrupt type s.ip)

/-- INT type 3 (44 R206). -/
def execInt3 (s : State) : Host.Outcome State Fault Refusal := .next (s.interrupt 3 s.ip)

/-- INTO: type 4 when OF = 1, nothing otherwise (44 R207). -/
def execInto (s : State) : Host.Outcome State Fault Refusal :=
  if s.flags.of then .next (s.interrupt 4 s.ip) else .next s

/-- IRET (44 R208). -/
def execIret (s : State) : Host.Outcome State Fault Refusal := .next s.interruptReturn

end Sys2Proof.Machine
end

