-- ==== Sys2Proof/Machine/DataTransfer.lean ====
section
/-! DEFINITION. The meanings of the data transfer instructions (40_data_transfer.md). In every meaning IP already holds the
offset of the next instruction (10_state.md R24). -/

namespace Sys2Proof.Machine

/-- MOV register/memory to/from register (40 R90). -/
def execMovRmReg (d : Dir) (w : Width) (reg : RegField) (rm : RM) (s : State) : Host.Outcome State Fault Refusal :=
  match d with
  | .toReg => .next (s.write w (.reg reg) (s.read w (s.place rm)))
  | .fromReg => .next (s.write w (s.place rm) (s.read w (.reg reg)))

/-- MOV immediate to register/memory (40 R91). -/
def execMovRmImm (rm : RM) (imm : Imm) (s : State) : Host.Outcome State Fault Refusal :=
  .next (s.write imm.width (s.place rm) (Imm.value imm))

/-- MOV immediate to register (40 R92). -/
def execMovRegImm (reg : RegField) (imm : Imm) (s : State) : Host.Outcome State Fault Refusal :=
  .next (s.write imm.width (.reg reg) (Imm.value imm))

/-- MOV memory to accumulator (40 R93). -/
def execMovAccMem (w : Width) (addr : Word) (s : State) : Host.Outcome State Fault Refusal :=
  .next (s.write w accPlace (s.read w (.mem (s.dataSeg .ds) addr)))

/-- MOV accumulator to memory (40 R94). -/
def execMovMemAcc (w : Width) (addr : Word) (s : State) : Host.Outcome State Fault Refusal :=
  .next (s.write w (.mem (s.dataSeg .ds) addr) (s.read w accPlace))

/-- MOV register/memory to segment register: the next boundary is inhibited; to CS only with `ADMIT_CS_LOAD` (40 R95). -/
def execMovSregRm (sr : SReg) (rm : RM) (s : State) : Host.Outcome State Fault Refusal :=
  if sr == .cs && !Config.admitCsLoad then .refused .csLoad
  else .next { s.setSreg sr (s.read .word (s.place rm)) with intInhibit := true }

/-- MOV segment register to register/memory (40 R96). -/
def execMovRmSreg (sr : SReg) (rm : RM) (s : State) : Host.Outcome State Fault Refusal :=
  .next (s.write .word (s.place rm) (s.seg.get sr))

/-- PUSH register/memory: the operand is read before SP is decremented; with register SP the word stored is either SP
(40 R97, 93 U9). -/
def execPushRm (rm : RM) (s : State) : Host.Outcome State Fault Refusal :=
  match rm with
  | .reg .spAh => .next (s.drawn.push (if s.freeValue.getLsbD 0 then s.gpr.sp - 2 else s.gpr.sp))
  | _ => .next (s.push (s.read .word (s.place rm)))

/-- PUSH register; PUSH SP stores the decremented SP with `PUSH_SP_NEW` (40 R98). -/
def execPushReg (reg : RegField) (s : State) : Host.Outcome State Fault Refusal :=
  if reg == .spAh && Config.pushSpNew then .next (s.push (s.gpr.sp - 2)) else .next (s.push (s.gpr.get reg))

/-- PUSH segment register (40 R99). -/
def execPushSreg (sr : SReg) (s : State) : Host.Outcome State Fault Refusal := .next (s.push (s.seg.get sr))

/-- POP register/memory: the effective address uses the register values from the start (40 R100). -/
def execPopRm (rm : RM) (s : State) : Host.Outcome State Fault Refusal :=
  .next (s.popped.write .word (s.place rm) s.top)

/-- POP register; POP SP leaves the word popped in SP (40 R101). -/
def execPopReg (reg : RegField) (s : State) : Host.Outcome State Fault Refusal := .next (s.popped.setReg reg s.top)

/-- POP segment register: the next boundary is inhibited; CS only with `ADMIT_CS_LOAD` (40 R102). -/
def execPopSreg (sr : SReg) (s : State) : Host.Outcome State Fault Refusal :=
  if sr == .cs && !Config.admitCsLoad then .refused .csLoad
  else .next { s.popped.setSreg sr s.top with intInhibit := true }

/-- XCHG register/memory with register: memory is written before the register (40 R103, 20 R57 (e)). -/
def execXchgRmReg (w : Width) (reg : RegField) (rm : RM) (s : State) : Host.Outcome State Fault Refusal :=
  .next ((s.write w (s.place rm) (s.read w (.reg reg))).write w (.reg reg) (s.read w (s.place rm)))

/-- XCHG register with accumulator (40 R104). -/
def execXchgAccReg (reg : RegField) (s : State) : Host.Outcome State Fault Refusal :=
  .next ((s.setReg .axAl (s.gpr.get reg)).setReg reg s.gpr.ax)

/-- IN fixed port (40 R105). -/
def execInFixed (w : Width) (port : Byte) (s : State) : Host.Outcome State Fault Refusal :=
  .next (s.inPort (port.setWidth 16) w)

/-- IN variable port: the port is DX (40 R106). -/
def execInVariable (w : Width) (s : State) : Host.Outcome State Fault Refusal :=
  if portRefused s.gpr.dx w then .refused .wordPortFFFF else .next (s.inPort s.gpr.dx w)

/-- OUT fixed port (40 R107). -/
def execOutFixed (w : Width) (port : Byte) (s : State) : Host.Outcome State Fault Refusal :=
  .next (s.outPort (port.setWidth 16) w)

/-- OUT variable port: the port is DX (40 R108). -/
def execOutVariable (w : Width) (s : State) : Host.Outcome State Fault Refusal :=
  if portRefused s.gpr.dx w then .refused .wordPortFFFF else .next (s.outPort s.gpr.dx w)

/-- XLAT: AL is added unsigned (40 R109). -/
def execXlat (s : State) : Host.Outcome State Fault Refusal :=
  .next (s.setByteReg .axAl (s.readByte (s.dataSeg .ds) (s.gpr.bx + s.al.setWidth 16)))

/-- LEA: the effective address, memory is not read (40 R110). -/
def execLea (reg : RegField) (m : MemOp) (s : State) : Host.Outcome State Fault Refusal := .next (s.setReg reg (s.ea m))

/-- LDS: the word at EA into the register, the word at EA + 2 into DS (40 R111). -/
def execLds (reg : RegField) (m : MemOp) (s : State) : Host.Outcome State Fault Refusal :=
  .next ((s.setReg reg (s.readWord (s.eaSeg m) (s.ea m))).setSreg .ds (s.readWord (s.eaSeg m) (s.ea m + 2)))

/-- LES: the same with ES (40 R112). -/
def execLes (reg : RegField) (m : MemOp) (s : State) : Host.Outcome State Fault Refusal :=
  .next ((s.setReg reg (s.readWord (s.eaSeg m) (s.ea m))).setSreg .es (s.readWord (s.eaSeg m) (s.ea m + 2)))

/-- LAHF: AH takes the low byte of FLAGS (40 R113). -/
def execLahf (s : State) : Host.Outcome State Fault Refusal := .next (s.setByteReg .spAh (loByte s.flags.image))

/-- SAHF: SF ZF AF PF CF from AH; OF DF IF TF unchanged (40 R114). -/
def execSahf (s : State) : Host.Outcome State Fault Refusal :=
  .next (s.setFlags { s.flags with
    sf := s.ah.getLsbD 7, zf := s.ah.getLsbD 6, af := s.ah.getLsbD 4, pf := s.ah.getLsbD 2, cf := s.ah.getLsbD 0 })

/-- PUSHF (40 R115). -/
def execPushf (s : State) : Host.Outcome State Fault Refusal := .next (s.push s.flags.image)

/-- POPF (40 R116). -/
def execPopf (s : State) : Host.Outcome State Fault Refusal := .next (s.popped.setFlags (Flags.ofImage s.top))

end Sys2Proof.Machine
end

