-- ==== Sys2Proof/Machine/Logic.lean ====
section
/-! DEFINITION. The meanings of the logic, shift and rotate instructions (42_logic.md). -/

namespace Sys2Proof.Machine

/-- NOT: every bit inverted, no flag written (42 R142). -/
def execNot (w : Width) (rm : RM) (s : State) : Host.Outcome State Fault Refusal :=
  .next (s.write w (s.place rm) (~~~ s.read w (s.place rm)))

/-- SHL/SAL (42 R143). -/
def execShl (v : CountSel) (w : Width) (rm : RM) (s : State) : Host.Outcome State Fault Refusal :=
  .next (s.shift .shl v w rm)

/-- SHR (42 R144). -/
def execShr (v : CountSel) (w : Width) (rm : RM) (s : State) : Host.Outcome State Fault Refusal :=
  .next (s.shift .shr v w rm)

/-- SAR (42 R145). -/
def execSar (v : CountSel) (w : Width) (rm : RM) (s : State) : Host.Outcome State Fault Refusal :=
  .next (s.shift .sar v w rm)

/-- ROL (42 R146). -/
def execRol (v : CountSel) (w : Width) (rm : RM) (s : State) : Host.Outcome State Fault Refusal :=
  .next (s.shift .rol v w rm)

/-- ROR (42 R147). -/
def execRor (v : CountSel) (w : Width) (rm : RM) (s : State) : Host.Outcome State Fault Refusal :=
  .next (s.shift .ror v w rm)

/-- RCL (42 R148). -/
def execRcl (v : CountSel) (w : Width) (rm : RM) (s : State) : Host.Outcome State Fault Refusal :=
  .next (s.shift .rcl v w rm)

/-- RCR (42 R149). -/
def execRcr (v : CountSel) (w : Width) (rm : RM) (s : State) : Host.Outcome State Fault Refusal :=
  .next (s.shift .rcr v w rm)

/-- AND register/memory with register, form RMR (42 R150). -/
def execAndRmReg (d : Dir) (w : Width) (reg : RegField) (rm : RM) (s : State) : Host.Outcome State Fault Refusal :=
  .next (s.binaryRmReg .and d w reg rm)

/-- AND immediate with register/memory, form IRM (42 R150). -/
def execAndRmImm (rm : RM) (imm : Imm) (s : State) : Host.Outcome State Fault Refusal :=
  .next (s.binaryRmImm .and rm imm)

/-- AND immediate with accumulator, form IACC (42 R150). -/
def execAndAccImm (imm : Imm) (s : State) : Host.Outcome State Fault Refusal :=
  .next (s.binaryAccImm .and imm)

/-- TEST register/memory and register; no d bit (42 R151). -/
def execTestRmReg (w : Width) (reg : RegField) (rm : RM) (s : State) : Host.Outcome State Fault Refusal :=
  .next (s.binaryRmReg .test .fromReg w reg rm)

/-- TEST immediate and register/memory (42 R151). -/
def execTestRmImm (rm : RM) (imm : Imm) (s : State) : Host.Outcome State Fault Refusal :=
  .next (s.binaryRmImm .test rm imm)

/-- TEST immediate and accumulator (42 R151). -/
def execTestAccImm (imm : Imm) (s : State) : Host.Outcome State Fault Refusal :=
  .next (s.binaryAccImm .test imm)

/-- OR register/memory with register, form RMR (42 R152). -/
def execOrRmReg (d : Dir) (w : Width) (reg : RegField) (rm : RM) (s : State) : Host.Outcome State Fault Refusal :=
  .next (s.binaryRmReg .or d w reg rm)

/-- OR immediate with register/memory, form IRM (42 R152). -/
def execOrRmImm (rm : RM) (imm : Imm) (s : State) : Host.Outcome State Fault Refusal :=
  .next (s.binaryRmImm .or rm imm)

/-- OR immediate with accumulator, form IACC (42 R152). -/
def execOrAccImm (imm : Imm) (s : State) : Host.Outcome State Fault Refusal :=
  .next (s.binaryAccImm .or imm)

/-- XOR register/memory with register, form RMR (42 R153). -/
def execXorRmReg (d : Dir) (w : Width) (reg : RegField) (rm : RM) (s : State) : Host.Outcome State Fault Refusal :=
  .next (s.binaryRmReg .xor d w reg rm)

/-- XOR immediate with register/memory, form IRM (42 R153). -/
def execXorRmImm (rm : RM) (imm : Imm) (s : State) : Host.Outcome State Fault Refusal :=
  .next (s.binaryRmImm .xor rm imm)

/-- XOR immediate with accumulator, form IACC (42 R153). -/
def execXorAccImm (imm : Imm) (s : State) : Host.Outcome State Fault Refusal :=
  .next (s.binaryAccImm .xor imm)

end Sys2Proof.Machine
end

