-- ==== Sys2Proof/Machine/ProcessorControl.lean ====
section
/-! DEFINITION. The meanings of the processor control instructions and of the prefixes LOCK and segment override
(45_processor_control.md). -/

namespace Sys2Proof.Machine

/-- CLC (45 R210). -/
def execClc (s : State) : Host.Outcome State Fault Refusal := .next (s.setFlags { s.flags with cf := false })

/-- CMC (45 R211). -/
def execCmc (s : State) : Host.Outcome State Fault Refusal := .next (s.setFlags { s.flags with cf := !s.flags.cf })

/-- STC (45 R212). -/
def execStc (s : State) : Host.Outcome State Fault Refusal := .next (s.setFlags { s.flags with cf := true })

/-- CLD (45 R213). -/
def execCld (s : State) : Host.Outcome State Fault Refusal := .next (s.setFlags { s.flags with df := false })

/-- STD (45 R214). -/
def execStd (s : State) : Host.Outcome State Fault Refusal := .next (s.setFlags { s.flags with df := true })

/-- CLI (45 R215). -/
def execCli (s : State) : Host.Outcome State Fault Refusal := .next (s.setFlags { s.flags with ifl := false })

/-- STI: the boundary after it is inhibited, whatever IF was (45 R216, 60 R237). -/
def execSti (s : State) : Host.Outcome State Fault Refusal :=
  .next { s.setFlags { s.flags with ifl := true } with intInhibit := true }

/-- HLT: no further instruction is fetched (45 R217); what ends the halt is in the boundary (60 R234). -/
def execHlt (s : State) : Host.Outcome State Fault Refusal := .next { s with halted := true }

/-- WAIT: over when TEST is active; otherwise IP goes back to its first byte, so that an interrupt saves that offset and the
next step looks again (45 R218), fetching the WAIT and its prefixes anew (DESIGN CHOICE, log 11; log 13 for the prefetch window
at that boundary). -/
def execWait (s : State) : Host.Outcome State Fault Refusal :=
  if s.input.test then .next s else .next { s with waiting := true, ip := s.startIp }

/-- ESC: with a memory operand one word is read and discarded; no state of the processor changes (45 R219). What the external
device does is out of scope (00 R4, log 12). -/
def execEsc (_x0 _x1 : BitVec 3) (_rm : RM) (s : State) : Host.Outcome State Fault Refusal := .next s

/-- LOCK: the LOCK output is asserted for the instruction that follows, which computes what it computes without it
(45 R220). -/
def execLock (s : State) : Host.Outcome State Fault Refusal :=
  .next { s with pfx := { s.pfx with lock := true, count := s.pfx.count + 1 } }

/-- Segment override: for the one instruction that follows; the last override is in effect (45 R221, 30 R75). -/
def execSeg (sr : SReg) (s : State) : Host.Outcome State Fault Refusal :=
  .next { s with pfx := { s.pfx with seg := some sr, count := s.pfx.count + 1 } }

end Sys2Proof.Machine
end

