-- ==== Sys2Proof/Machine/StringOps.lean ====
section
/-! DEFINITION. The meanings of REP and the string instructions (43_string.md). -/

namespace Sys2Proof.Machine

/-- REP: recorded for the string instruction that follows (43 R161, 30 R75). -/
def execRep (z : Bool) (s : State) : Host.Outcome State Fault Refusal :=
  .next { s with pfx := { s.pfx with rep := some z, count := s.pfx.count + 1 } }

/-- One element of MOVS (43 R162). -/
def movsElement (w : Width) (s : State) : State :=
  ((s.write w s.stringDst (s.read w s.stringSrc)).stepSi w).stepDi w

/-- One element of CMPS: the element at SI minus the element at DI, flags only (43 R163). -/
def cmpsElement (w : Width) (s : State) : State :=
  ((s.setFlags (s.flags.setSum (subN (s.read w s.stringSrc) (s.read w s.stringDst) false))).stepSi w).stepDi w

/-- One element of SCAS: the accumulator minus the element at DI, flags only (43 R164). -/
def scasElement (w : Width) (s : State) : State :=
  (s.setFlags (s.flags.setSum (subN (s.read w accPlace) (s.read w s.stringDst) false))).stepDi w

/-- One element of LODS (43 R165). -/
def lodsElement (w : Width) (s : State) : State :=
  (s.write w accPlace (s.read w s.stringSrc)).stepSi w

/-- One element of STOS (43 R166). -/
def stosElement (w : Width) (s : State) : State :=
  (s.write w s.stringDst (s.read w accPlace)).stepDi w

/-- MOVS (43 R161, R162). -/
def execMovs (w : Width) (s : State) : Host.Outcome State Fault Refusal :=
  s.string false (fun t => t.stringDst.bytes w) (movsElement w)

/-- CMPS (43 R161, R163). -/
def execCmps (w : Width) (s : State) : Host.Outcome State Fault Refusal := s.string true (fun _ => []) (cmpsElement w)

/-- SCAS (43 R161, R164). -/
def execScas (w : Width) (s : State) : Host.Outcome State Fault Refusal := s.string true (fun _ => []) (scasElement w)

/-- LODS (43 R161, R165). -/
def execLods (w : Width) (s : State) : Host.Outcome State Fault Refusal := s.string false (fun _ => []) (lodsElement w)

/-- STOS (43 R161, R166). -/
def execStos (w : Width) (s : State) : Host.Outcome State Fault Refusal :=
  s.string false (fun t => t.stringDst.bytes w) (stosElement w)

end Sys2Proof.Machine
end

