-- ==== Sys2Proof/Machine/Dispatch.lean ====
section
/-! DEFINITION. Every instruction to its meaning, one arm per constructor of Instr. -/

namespace Sys2Proof.Machine

def exec (i : Instr) (s : State) : Host.Outcome State Fault Refusal :=
  match i with
  | .movRmReg d w reg rm => Sys2Proof.Machine.execMovRmReg d w reg rm s
  | .movRmImm rm imm => Sys2Proof.Machine.execMovRmImm rm imm s
  | .movRegImm reg imm => Sys2Proof.Machine.execMovRegImm reg imm s
  | .movAccMem w addr => Sys2Proof.Machine.execMovAccMem w addr s
  | .movMemAcc w addr => Sys2Proof.Machine.execMovMemAcc w addr s
  | .movSregRm sr rm => Sys2Proof.Machine.execMovSregRm sr rm s
  | .movRmSreg sr rm => Sys2Proof.Machine.execMovRmSreg sr rm s
  | .pushRm rm => Sys2Proof.Machine.execPushRm rm s
  | .pushReg reg => Sys2Proof.Machine.execPushReg reg s
  | .pushSreg sr => Sys2Proof.Machine.execPushSreg sr s
  | .popRm rm => Sys2Proof.Machine.execPopRm rm s
  | .popReg reg => Sys2Proof.Machine.execPopReg reg s
  | .popSreg sr => Sys2Proof.Machine.execPopSreg sr s
  | .xchgRmReg w reg rm => Sys2Proof.Machine.execXchgRmReg w reg rm s
  | .xchgAccReg reg => Sys2Proof.Machine.execXchgAccReg reg s
  | .inFixed w port => Sys2Proof.Machine.execInFixed w port s
  | .inVariable w => Sys2Proof.Machine.execInVariable w s
  | .outFixed w port => Sys2Proof.Machine.execOutFixed w port s
  | .outVariable w => Sys2Proof.Machine.execOutVariable w s
  | .xlat => Sys2Proof.Machine.execXlat s
  | .lea reg m => Sys2Proof.Machine.execLea reg m s
  | .lds reg m => Sys2Proof.Machine.execLds reg m s
  | .les reg m => Sys2Proof.Machine.execLes reg m s
  | .lahf => Sys2Proof.Machine.execLahf s
  | .sahf => Sys2Proof.Machine.execSahf s
  | .pushf => Sys2Proof.Machine.execPushf s
  | .popf => Sys2Proof.Machine.execPopf s
  | .addRmReg d w reg rm => Sys2Proof.Machine.execAddRmReg d w reg rm s
  | .addRmImm rm imm => Sys2Proof.Machine.execAddRmImm rm imm s
  | .addAccImm imm => Sys2Proof.Machine.execAddAccImm imm s
  | .adcRmReg d w reg rm => Sys2Proof.Machine.execAdcRmReg d w reg rm s
  | .adcRmImm rm imm => Sys2Proof.Machine.execAdcRmImm rm imm s
  | .adcAccImm imm => Sys2Proof.Machine.execAdcAccImm imm s
  | .incRm w rm => Sys2Proof.Machine.execIncRm w rm s
  | .incReg reg => Sys2Proof.Machine.execIncReg reg s
  | .aaa => Sys2Proof.Machine.execAaa s
  | .daa => Sys2Proof.Machine.execDaa s
  | .subRmReg d w reg rm => Sys2Proof.Machine.execSubRmReg d w reg rm s
  | .subRmImm rm imm => Sys2Proof.Machine.execSubRmImm rm imm s
  | .subAccImm imm => Sys2Proof.Machine.execSubAccImm imm s
  | .sbbRmReg d w reg rm => Sys2Proof.Machine.execSbbRmReg d w reg rm s
  | .sbbRmImm rm imm => Sys2Proof.Machine.execSbbRmImm rm imm s
  | .sbbAccImm imm => Sys2Proof.Machine.execSbbAccImm imm s
  | .decRm w rm => Sys2Proof.Machine.execDecRm w rm s
  | .decReg reg => Sys2Proof.Machine.execDecReg reg s
  | .neg w rm => Sys2Proof.Machine.execNeg w rm s
  | .cmpRmReg d w reg rm => Sys2Proof.Machine.execCmpRmReg d w reg rm s
  | .cmpRmImm rm imm => Sys2Proof.Machine.execCmpRmImm rm imm s
  | .cmpAccImm imm => Sys2Proof.Machine.execCmpAccImm imm s
  | .aas => Sys2Proof.Machine.execAas s
  | .das => Sys2Proof.Machine.execDas s
  | .mul w rm => Sys2Proof.Machine.execMul w rm s
  | .imul w rm => Sys2Proof.Machine.execImul w rm s
  | .aam base => Sys2Proof.Machine.execAam base s
  | .div w rm => Sys2Proof.Machine.execDiv w rm s
  | .idiv w rm => Sys2Proof.Machine.execIdiv w rm s
  | .aad base => Sys2Proof.Machine.execAad base s
  | .cbw => Sys2Proof.Machine.execCbw s
  | .cwd => Sys2Proof.Machine.execCwd s
  | .not w rm => Sys2Proof.Machine.execNot w rm s
  | .shl v w rm => Sys2Proof.Machine.execShl v w rm s
  | .shr v w rm => Sys2Proof.Machine.execShr v w rm s
  | .sar v w rm => Sys2Proof.Machine.execSar v w rm s
  | .rol v w rm => Sys2Proof.Machine.execRol v w rm s
  | .ror v w rm => Sys2Proof.Machine.execRor v w rm s
  | .rcl v w rm => Sys2Proof.Machine.execRcl v w rm s
  | .rcr v w rm => Sys2Proof.Machine.execRcr v w rm s
  | .andRmReg d w reg rm => Sys2Proof.Machine.execAndRmReg d w reg rm s
  | .andRmImm rm imm => Sys2Proof.Machine.execAndRmImm rm imm s
  | .andAccImm imm => Sys2Proof.Machine.execAndAccImm imm s
  | .testRmReg w reg rm => Sys2Proof.Machine.execTestRmReg w reg rm s
  | .testRmImm rm imm => Sys2Proof.Machine.execTestRmImm rm imm s
  | .testAccImm imm => Sys2Proof.Machine.execTestAccImm imm s
  | .orRmReg d w reg rm => Sys2Proof.Machine.execOrRmReg d w reg rm s
  | .orRmImm rm imm => Sys2Proof.Machine.execOrRmImm rm imm s
  | .orAccImm imm => Sys2Proof.Machine.execOrAccImm imm s
  | .xorRmReg d w reg rm => Sys2Proof.Machine.execXorRmReg d w reg rm s
  | .xorRmImm rm imm => Sys2Proof.Machine.execXorRmImm rm imm s
  | .xorAccImm imm => Sys2Proof.Machine.execXorAccImm imm s
  | .rep z => Sys2Proof.Machine.execRep z s
  | .movs w => Sys2Proof.Machine.execMovs w s
  | .cmps w => Sys2Proof.Machine.execCmps w s
  | .scas w => Sys2Proof.Machine.execScas w s
  | .lods w => Sys2Proof.Machine.execLods w s
  | .stos w => Sys2Proof.Machine.execStos w s
  | .callRel disp => Sys2Proof.Machine.execCallRel disp s
  | .callRm rm => Sys2Proof.Machine.execCallRm rm s
  | .callFar off sg => Sys2Proof.Machine.execCallFar off sg s
  | .callFarMem m => Sys2Proof.Machine.execCallFarMem m s
  | .jmpRel disp => Sys2Proof.Machine.execJmpRel disp s
  | .jmpShort disp => Sys2Proof.Machine.execJmpShort disp s
  | .jmpRm rm => Sys2Proof.Machine.execJmpRm rm s
  | .jmpFar off sg => Sys2Proof.Machine.execJmpFar off sg s
  | .jmpFarMem m => Sys2Proof.Machine.execJmpFarMem m s
  | .ret => Sys2Proof.Machine.execRet s
  | .retImm data => Sys2Proof.Machine.execRetImm data s
  | .retFar => Sys2Proof.Machine.execRetFar s
  | .retFarImm data => Sys2Proof.Machine.execRetFarImm data s
  | .je disp => Sys2Proof.Machine.execJe disp s
  | .jl disp => Sys2Proof.Machine.execJl disp s
  | .jle disp => Sys2Proof.Machine.execJle disp s
  | .jb disp => Sys2Proof.Machine.execJb disp s
  | .jbe disp => Sys2Proof.Machine.execJbe disp s
  | .jp disp => Sys2Proof.Machine.execJp disp s
  | .jo disp => Sys2Proof.Machine.execJo disp s
  | .js disp => Sys2Proof.Machine.execJs disp s
  | .jne disp => Sys2Proof.Machine.execJne disp s
  | .jnl disp => Sys2Proof.Machine.execJnl disp s
  | .jnle disp => Sys2Proof.Machine.execJnle disp s
  | .jnb disp => Sys2Proof.Machine.execJnb disp s
  | .jnbe disp => Sys2Proof.Machine.execJnbe disp s
  | .jnp disp => Sys2Proof.Machine.execJnp disp s
  | .jno disp => Sys2Proof.Machine.execJno disp s
  | .jns disp => Sys2Proof.Machine.execJns disp s
  | .loop disp => Sys2Proof.Machine.execLoop disp s
  | .loopz disp => Sys2Proof.Machine.execLoopz disp s
  | .loopnz disp => Sys2Proof.Machine.execLoopnz disp s
  | .jcxz disp => Sys2Proof.Machine.execJcxz disp s
  | .int type => Sys2Proof.Machine.execInt type s
  | .int3 => Sys2Proof.Machine.execInt3 s
  | .into => Sys2Proof.Machine.execInto s
  | .iret => Sys2Proof.Machine.execIret s
  | .clc => Sys2Proof.Machine.execClc s
  | .cmc => Sys2Proof.Machine.execCmc s
  | .stc => Sys2Proof.Machine.execStc s
  | .cld => Sys2Proof.Machine.execCld s
  | .std => Sys2Proof.Machine.execStd s
  | .cli => Sys2Proof.Machine.execCli s
  | .sti => Sys2Proof.Machine.execSti s
  | .hlt => Sys2Proof.Machine.execHlt s
  | .wait => Sys2Proof.Machine.execWait s
  | .esc x0 x1 rm => Sys2Proof.Machine.execEsc x0 x1 rm s
  | .lock => Sys2Proof.Machine.execLock s
  | .seg sr => Sys2Proof.Machine.execSeg sr s

end Sys2Proof.Machine
end

