-- ==== Sys2Proof/Machine/Fetch.lean ====
section
/-! DEFINITION. Fetching and decoding at CS:IP (30_encoding.md R60, R76; 20_memory.md R54). -/

namespace Sys2Proof.Machine

/-- The physical addresses of the `n` bytes from CS:IP on; IP wraps inside the code segment (10_state.md R24). -/
def State.codeAddrs (s : State) (n : Nat) : List Nat :=
  (List.range n).map fun k => phys s.seg.cs (s.ip + BitVec.ofNat 16 k)

/-- The bytes from CS:IP on, as many as the longest instruction without prefixes has (30 R76). -/
def State.codeBytes (s : State) : List Byte :=
  (s.codeAddrs Config.maxInstrBytes).map fun a => s.mem.read a

/-- The instruction at CS:IP, read from memory now, with the state whose IP is past it (30 R76). Bytes that match no row,
and a byte that the prefetch queue may hold in an older version, are refused (30 R79, 20 R54). -/
def State.fetch (s : State) : Except Refusal (Instr × State) :=
  match decode s.codeBytes with
  | .error e => .error (.undecodable e)
  | .ok (i, rest) =>
    let len := s.codeBytes.length - rest.length
    if (s.codeAddrs len).any fun a => s.staleCode.contains a then .error .stalePrefetch
    else .ok (i, s.setIp (s.ip + BitVec.ofNat 16 len))

end Sys2Proof.Machine
end

