-- ==== Sys2Proof/Machine/Stores.lean ====
section
/-! DEFINITION. Which bytes of memory an instruction stores to. -/

namespace Sys2Proof.Machine

/-- The divide cannot give its quotient: the divisor is 0 or the quotient does not fit, IDIV's from `idivMin` on
(41_arithmetic.md R118, R135, R136;
60_exceptions.md R231); for AAM, the base is 0 (41 R134). -/
def divideErrorDue (i : Instr) (s : State) : Bool :=
  match i with
  | .div w rm =>
    let d := (s.accDouble w).toNat
    let v := (s.read w (s.place rm)).toNat
    v == 0 || 2 ^ w.bits - 1 < d / v
  | .idiv w rm =>
    let d := (s.accDouble w).toInt
    let v := (s.read w (s.place rm)).toInt
    v == 0 || 2 ^ (w.bits - 1) - 1 < d.tdiv v || d.tdiv v < idivMin w.bits
  | .aam base => base == 0
  | _ => false

/-- The bytes an instruction of form RMR stores to: those of the r/m operand when d = 0 (30_encoding.md R71). -/
def State.rmrBytes (s : State) (d : Dir) (w : Width) (rm : RM) : List Nat :=
  match d with
  | .toReg => []
  | .fromReg => (s.place rm).bytes w

/-- The bytes one element of MOVS or STOS stores to: none in a repetition with CX = 0 (43_string.md R160, R161). -/
def State.elementBytes (s : State) (w : Width) : List Nat :=
  if s.pfx.rep.isSome && s.gpr.cx == 0 then [] else s.stringDst.bytes w

/-- The physical addresses of the bytes the instruction stores to, executed from `s`; of a repeated string instruction, those
of its first element: an operand in memory that is written (the rules of 40 to 43), the words it pushes (20_memory.md R56), the
frame of the interrupt it takes (60_exceptions.md R231, R233). -/
def storesOf (i : Instr) (s : State) : List Nat :=
  match i with
  | .movRmReg d w _ rm | .addRmReg d w _ rm | .adcRmReg d w _ rm | .subRmReg d w _ rm | .sbbRmReg d w _ rm
  | .andRmReg d w _ rm | .orRmReg d w _ rm | .xorRmReg d w _ rm => s.rmrBytes d w rm
  | .movRmImm rm imm | .andRmImm rm imm | .orRmImm rm imm | .xorRmImm rm imm => (s.place rm).bytes imm.width
  | .addRmImm rm imm | .adcRmImm rm imm | .subRmImm rm imm | .sbbRmImm rm imm => (s.place rm).bytes imm.width
  | .xchgRmReg w _ rm | .incRm w rm | .decRm w rm | .neg w rm | .not w rm => (s.place rm).bytes w
  | .shl v w rm | .shr v w rm | .sar v w rm | .rol v w rm | .ror v w rm | .rcl v w rm | .rcr v w rm =>
    if s.shiftCount v = 0 then [] else (s.place rm).bytes w
  | .movMemAcc w addr => (Place.mem (s.dataSeg .ds) addr).bytes w
  | .movRmSreg _ rm | .popRm rm => (s.place rm).bytes .word
  | .movs w | .stos w => s.elementBytes w
  | .pushRm _ | .pushReg _ | .pushSreg _ | .pushf | .callRel _ | .callRm _ => s.pushBytes 1
  | .callFar _ _ | .callFarMem _ => s.pushBytes 2
  | .int _ | .int3 => s.pushBytes 3
  | .into => if s.flags.of then s.pushBytes 3 else []
  | .div .. | .idiv .. | .aam _ => if divideErrorDue i s then s.pushBytes 3 else []
  | .movRegImm .. | .movAccMem .. | .movSregRm .. | .popReg _ | .popSreg _ | .xchgAccReg _ | .inFixed .. | .inVariable _
  | .outFixed .. | .outVariable _ | .xlat | .lea .. | .lds .. | .les .. | .lahf | .sahf | .popf
  | .addAccImm _ | .adcAccImm _ | .incReg _ | .aaa | .daa | .subAccImm _ | .sbbAccImm _ | .decReg _
  | .cmpRmReg .. | .cmpRmImm .. | .cmpAccImm _ | .aas | .das | .mul .. | .imul .. | .aad _ | .cbw | .cwd
  | .andAccImm _ | .testRmReg .. | .testRmImm .. | .testAccImm _ | .orAccImm _ | .xorAccImm _
  | .rep _ | .cmps _ | .scas _ | .lods _ | .jmpRel _ | .jmpShort _ | .jmpRm _ | .jmpFar .. | .jmpFarMem _
  | .ret | .retImm _ | .retFar | .retFarImm _ | .je _ | .jl _ | .jle _ | .jb _ | .jbe _ | .jp _ | .jo _ | .js _ | .jne _
  | .jnl _ | .jnle _ | .jnb _ | .jnbe _ | .jnp _ | .jno _ | .jns _ | .loop _ | .loopz _ | .loopnz _ | .jcxz _ | .iret
  | .clc | .cmc | .stc | .cld | .std | .cli | .sti | .hlt | .wait | .esc .. | .lock | .seg _ => []

end Sys2Proof.Machine
end

