-- ==== Sys2Proof/Machine/Run.lean ====
section
/-! DEFINITION. One whole instruction: its prefixes, then the instruction itself (30_encoding.md R75, R76; 60_exceptions.md
R234). -/

namespace Sys2Proof.Machine

/-- Fetch and execute prefixes until there is an instruction to give to `finish`. `fuel` bounds the prefix bytes: a code
segment has 2^16 bytes, so when it runs out every byte of the segment is a prefix and no opcode ever follows (30 R79 item 9).
REP before anything but a string primitive is refused (30 R75, R79 item 9). -/
def runWith (finish : Instr → State → Host.Outcome State Fault Refusal) : Nat → State → Host.Outcome State Fault Refusal
  | 0, _ => .refused .onlyPrefixBytes
  | fuel + 1, s =>
    match s.fetch with
    | .error r => .refused r
    | .ok (i, s1) =>
      if i.actsAsPrefix then
        match exec i s1 with
        | .next s2 => runWith finish fuel s2
        | .fault f => .fault f
        | .refused r => .refused r
      else if s1.pfx.rep.isSome && !i.isStringPrimitive then .refused .repBeforeNonString
      else finish i s1

/-- One instruction with its prefixes (30 R75, R76). -/
def runInstr (fuel : Nat) (s : State) : Host.Outcome State Fault Refusal := runWith exec fuel s

/-- The instruction `i` aborted by RESET (70_reset_and_hazards.md R260); of a repeated string instruction, its first element. What
would have been refused is refused. Log 7. -/
def abortInstr (i : Instr) (s : State) : Host.Outcome State Fault Refusal :=
  match exec i { s with pfx := { s.pfx with rep := none } } with
  | .next t => .next (s.abort t (storesOf i s))
  | .fault f => .fault f
  | .refused r => .refused r

/-- What a step does with the outcome of its instruction: the prefixes are consumed, but for LOCK of an unfinished WAIT, and the
boundary is looked at (60 R234). An NMI edge before the first instruction after reset is over has no meaning (93 U15). -/
def finishInstr (o : Host.Outcome State Fault Refusal) : Host.Outcome State Fault Refusal :=
  match o with
  | .next s =>
    if s.justReset && s.nmiNow && s.input.reset == .inactive then .refused .nmiBeforeFirstBoundary
    else .next s.endInstr.boundary
  | .fault f => .fault f
  | .refused r => .refused r

/-- The step of the machine (60_exceptions.md R234), with RESET at its start or in its instruction (70 R260). -/
def stepOf (s : State) : Host.Outcome State Fault Refusal :=
  match s.input.reset with
  | .atStart => .next s.takeReset
  | .inInstr => if s.halted then .next s.takeReset else runWith abortInstr Config.codeSegmentBytes s.beginInstr
  | .inactive | .atBoundary =>
    if s.halted then .next s.idle.boundary else finishInstr (runInstr Config.codeSegmentBytes s.beginInstr)

/-- Memory with the bytes `bs` at the `k`-th and following offsets from CS:IP. -/
def State.placeCode (s : State) : Nat → List Byte → Memory
  | _, [] => s.mem
  | k, b :: bs => (s.placeCode (k + 1) bs).write (phys s.seg.cs (s.ip + BitVec.ofNat 16 k)) b

/-- The state with those bytes at CS:IP and nothing that would keep the next step from fetching them: not halted, no stale
byte, no RESET at the start or in the instruction in the host's next record. Log 4. -/
def State.withCode (s : State) (bs : List Byte) : State :=
  { s with
    mem := s.placeCode 0 bs
    halted := false
    staleCode := []
    inputs := s.inputs.dropWhile fun h => h.reset == .atStart || h.reset == .inInstr }

end Sys2Proof.Machine
end

