-- ==== Sys2Proof/Machine/Step.lean ====
section
/-! DEFINITION. One step of the machine, and an instruction placed where the next step fetches. -/

namespace Sys2Proof.Machine

/-- One step (60_exceptions.md R234). -/
def step (s : State) : Host.Outcome State Fault Refusal := stepOf s

/-- `s` with the instruction whose bits are `w`, numbered as spec/opcode_table.json numbers them, at CS:IP. Log 1, log 4. -/
def State.withFetchWord (s : State) (nbits w : Nat) : State := s.withCode (tableInstrBytes nbits w)

end Sys2Proof.Machine
end

