-- ==== Sys2Proof/Safety.lean ====
section
/-! DEFINITION. The terms in which claims speak: what may differ between the state before and the state after an instruction,
a quiet host, the invariant of the machine, the affected-flags table, and when a divide is a divide error. -/

namespace Sys2Proof.Machine

/-! ### Frames -/

/-- The general registers `g'` are `g` but for the operand of width `w` that `p` names (10_state.md R20, R21): nothing for a
memory operand, one word register, or one half of a word register. -/
def Gpr.SameBut (g g' : Gpr) (w : Width) (p : Place) : Prop :=
  match w, p with
  | _, .mem _ _ => g' = g
  | .word, .reg r => ∀ q, q ≠ r → g'.get q = g.get q
  | .byte, .reg r =>
    (∀ q, q ≠ r → g'.getByte q = g.getByte q) ∧ g'.sp = g.sp ∧ g'.bp = g.bp ∧ g'.si = g.si ∧ g'.di = g.di

/-- Every byte of memory outside the addresses `l` reads as before. -/
def Memory.SameOff (m m' : Memory) (l : List Nat) : Prop := ∀ a, a ∉ l → m'.read a = m.read a

/-- Nothing differs but general registers, flags, memory with the record of stores into the prefetch window, and the count
of free values. -/
def State.SameElse (s t : State) : Prop :=
  t = { s with
    gpr := t.gpr, flags := t.flags, mem := t.mem, staleCode := t.staleCode, freeCount := t.freeCount }

/-- The stores to the addresses `l` are remembered where they fall inside the prefetch window (20_memory.md R54). -/
def State.Remembers (s t : State) (l : List Nat) : Prop :=
  ∀ a, a ∈ t.staleCode ↔ a ∈ s.staleCode ∨ (a ∈ l ∧ a ∈ s.prefetchWindow)

/-- From `s` to `t` the operand of width `w` at `p` took the value `v`; no other register and no other byte of memory
changed, and nothing else but possibly flags and the count of free values. -/
structure State.Wrote (s t : State) (w : Width) (p : Place) (v : BitVec w.bits) : Prop where
  value : t.read w p = v
  regs : s.gpr.SameBut t.gpr w p
  memory : s.mem.SameOff t.mem (p.bytes w)
  code : s.Remembers t (p.bytes w)
  rest : s.SameElse t

/-- From `s` to `t` the words `vs` were pushed, the first one first: SP is lower by 2 for each, the last word lies at SS:SP
with the earlier ones above it, and no byte outside these words changed (20_memory.md R56). -/
structure State.Pushed (s t : State) (vs : List Word) : Prop where
  sp : t.gpr.sp = s.gpr.sp - BitVec.ofNat 16 (2 * vs.length)
  words : ∀ k, (h : k < vs.length) → t.readWord s.seg.ss (s.gpr.sp - BitVec.ofNat 16 (2 * (k + 1))) = vs[k]
  memory : s.mem.SameOff t.mem
    ((List.range (2 * vs.length)).map fun k => phys s.seg.ss (s.gpr.sp - BitVec.ofNat 16 (k + 1)))

/-- The operand took the value `v` and nothing else changed, no flag either. -/
def State.WroteOnly (s t : State) (w : Width) (p : Place) (v : BitVec w.bits) : Prop :=
  s.Wrote t w p v ∧ t.flags = s.flags ∧ t.freeCount = s.freeCount

/-- The words were pushed and nothing else changed. -/
def State.PushedOnly (s t : State) (vs : List Word) : Prop :=
  s.Pushed t vs ∧
    s.Remembers t ((List.range (2 * vs.length)).map fun k => phys s.seg.ss (s.gpr.sp - BitVec.ofNat 16 (k + 1))) ∧
    t = { s with gpr := { s.gpr with sp := t.gpr.sp }, mem := t.mem, staleCode := t.staleCode }

/-- The words were pushed, control went to offset `ip` of code segment `cs`, and nothing else changed. -/
def State.Called (s t : State) (vs : List Word) (cs ip : Word) : Prop :=
  s.Pushed t vs ∧
    t = { s with
      gpr := { s.gpr with sp := t.gpr.sp }, seg := { s.seg with cs := cs }, ip := ip, mem := t.mem, staleCode := [] }

/-- From `s` to `t` an interrupt of type `k` was taken with saved offset `ret` (60_exceptions.md R233): FLAGS, CS and `ret`
were pushed, IF and TF are 0, IP and CS hold the two words of entry `k` of the pointer table, a halt is over, the bytes
fetched ahead are discarded, and nothing else changed. -/
def State.Interrupted (s t : State) (k : Byte) (ret : Word) : Prop :=
  s.Pushed t [s.flags.image, s.seg.cs, ret] ∧
    t = { s with
      gpr := { s.gpr with sp := t.gpr.sp }
      seg := { s.seg with cs := t.mem.read (4 * k.toNat + 3) ++ t.mem.read (4 * k.toNat + 2) }
      ip := t.mem.read (4 * k.toNat + 1) ++ t.mem.read (4 * k.toNat)
      flags := { s.flags with ifl := false, tf := false }
      mem := t.mem
      halted := false
      staleCode := [] }

/-! ### Results -/

/-- `b` and the carry `c` were added to the operand at `p` (00_scope.md R8, 41_arithmetic.md R117): the sum modulo 2^n, CF
the carry out of the top bit, OF that the signed sum does not fit, AF the carry out of bit 3, SF ZF PF from the sum; DF, IF,
TF as before. -/
def State.Added (s t : State) (w : Width) (p : Place) (b : BitVec w.bits) (c : Bool) : Prop :=
  let a := s.read w p
  let r := BitVec.ofNat w.bits (a.toNat + b.toNat + c.toNat)
  s.Wrote t w p r ∧ t.freeCount = s.freeCount ∧
    t.flags = { s.flags with
      of := decide (r.toInt ≠ a.toInt + b.toInt + c.toNat)
      sf := decide (r.toInt < 0)
      zf := decide (r = 0)
      af := decide (16 ≤ a.toNat % 16 + b.toNat % 16 + c.toNat)
      pf := parity8 r
      cf := decide (2 ^ w.bits ≤ a.toNat + b.toNat + c.toNat) }

/-- The flags that follow from `a` minus `b` minus the borrow `c` with result `r` (00 R8, 41 R117): CF the borrow, OF that
the signed difference does not fit, AF the borrow into bit 3, SF ZF PF from the result; DF, IF, TF as before. -/
def Flags.AfterSub {n : Nat} (f g : Flags) (a b r : BitVec n) (c : Bool) : Prop :=
  g = { f with
    of := decide (r.toInt ≠ a.toInt - b.toInt - c.toNat)
    sf := decide (r.toInt < 0)
    zf := decide (r = 0)
    af := decide (a.toNat % 16 < b.toNat % 16 + c.toNat)
    pf := parity8 r
    cf := decide (a.toNat < b.toNat + c.toNat) }

/-- `b` and the borrow `c` were subtracted from the operand at `p` (00 R8, 41 R117). -/
def State.Subtracted (s t : State) (w : Width) (p : Place) (b : BitVec w.bits) (c : Bool) : Prop :=
  let a := s.read w p
  let r := BitVec.ofInt w.bits (a.toInt - b.toInt - c.toNat)
  s.Wrote t w p r ∧ t.freeCount = s.freeCount ∧ s.flags.AfterSub t.flags a b r c

/-- Operands `a` and `b` were compared: the flags of `a` minus `b`, and nothing else changed (41 R129). -/
def State.Compared {n : Nat} (s t : State) (a b : BitVec n) : Prop :=
  s.flags.AfterSub t.flags a b (BitVec.ofInt n (a.toInt - b.toInt)) false ∧ t = { s with flags := t.flags }

/-- The flags of a bitwise operation with result `r`: CF and OF 0, SF ZF PF from the result, AF left open; DF, IF, TF as
before (42_logic.md R141). -/
def Flags.AfterLogic {n : Nat} (f g : Flags) (r : BitVec n) : Prop :=
  g = { f with of := false, sf := decide (r.toInt < 0), zf := decide (r = 0), af := g.af, pf := parity8 r, cf := false }

/-- The operand at `p` took the value `r` of a bitwise operation (42 R150, R152, R153). -/
def State.Combined (s t : State) (w : Width) (p : Place) (r : BitVec w.bits) : Prop :=
  s.Wrote t w p r ∧ s.flags.AfterLogic t.flags r

/-- Nothing but flags and the count of free values changed, and the flags are those of a bitwise operation with result `r`
(42 R151). -/
def State.Tested {n : Nat} (s t : State) (r : BitVec n) : Prop :=
  s.flags.AfterLogic t.flags r ∧ t = { s with flags := t.flags, freeCount := t.freeCount }

/-- The operand at `p` was shifted to `r` with carry `c`: SF ZF PF from `r`, AF left open, OF equal to `o` where it is given
(count 1) and left open otherwise; DF, IF, TF as before (42 R140, R143 to R145). -/
def State.Shifted (s t : State) (w : Width) (p : Place) (r : BitVec w.bits) (c : Bool) (o : Option Bool) : Prop :=
  s.Wrote t w p r ∧ (∀ b, o = some b → t.flags.of = b) ∧
    t.flags = { s.flags with
      of := t.flags.of, sf := decide (r.toInt < 0), zf := decide (r = 0), af := t.flags.af, pf := parity8 r, cf := c }

/-- The operand at `p` was rotated to `r` with carry `c`: OF equal to `o` where it is given (count 1) and left open otherwise;
every other flag as before (42 R140, R146 to R149). -/
def State.Rotated (s t : State) (w : Width) (p : Place) (r : BitVec w.bits) (c : Bool) (o : Option Bool) : Prop :=
  s.Wrote t w p r ∧ (∀ b, o = some b → t.flags.of = b) ∧ t.flags = { s.flags with of := t.flags.of, cf := c }

/-! ### Operands of the shared forms -/

/-- The value of every immediate: by w it is the byte or the word itself (30_encoding.md R67); by s:w it is so too, but for
s:w = 11, where the byte is sign-extended to a word (30 R68). -/
def ImmediateValues : Prop :=
  (∀ v, Imm.value (.byte v) = v) ∧ (∀ v, Imm.value (.word v) = v) ∧
    (∀ v, SwImm.value (.s0w0 v) = v) ∧ (∀ v, SwImm.value (.s0w1 v) = v) ∧ (∀ v, SwImm.value (.s1w0 v) = v) ∧
    ∀ v, SwImm.value (.s1w1 v) = v.signExtend 16

/-- Form RMR: the destination operand by d (30_encoding.md R71). -/
def State.rmrDst (s : State) (d : Dir) (reg : RegField) (rm : RM) : Place :=
  match d with
  | .toReg => .reg reg
  | .fromReg => s.place rm

/-- Form RMR: the source operand by d (30 R71). -/
def State.rmrSrc (s : State) (d : Dir) (reg : RegField) (rm : RM) : Place :=
  match d with
  | .toReg => s.place rm
  | .fromReg => .reg reg

/-! ### The host -/

/-- No interrupt and no RESET can come and the instruction is not stepped: nothing pending, nothing in the host's schedule,
TF was 0 when the instruction began (60_exceptions.md R236, R238). -/
def State.Quiet (s : State) : Prop := s.nmiPending = false ∧ s.inputs = [] ∧ s.tfAtStart = false

/-- RESET neither is active when the step begins nor becomes active in its instruction (70_reset_and_hazards.md R260). -/
def State.Runs (s : State) : Prop := s.input.reset = .inactive ∨ s.input.reset = .atBoundary

/-- An interrupt is recognised at this boundary, or between two elements of a repetition: NMI, INTR with IF = 1, or the
single-step trap (60_exceptions.md R234, R236, R238; 43_string.md R161). -/
def State.Due (s : State) : Prop :=
  s.nmiPending = true ∨ s.input.nmiEdge = true ∨ (s.flags.ifl = true ∧ ∃ k, s.input.intr = some k) ∨ s.tfAtStart = true

/-- `EXTERNAL_AGENTS` (00_scope.md R5): something other than the processor writes memory in this run. It is none where no
record of the host holds a write (log 13). -/
def State.externalAgents (s : State) : Bool := s.inputs.any fun h => !h.writes.isEmpty

/-- The addresses other agents write by this boundary (20_memory.md R51). -/
def State.agentBytes (s : State) : List Nat := s.input.writes.map fun c => c.1 % 2 ^ 20

/-- The state in which the instruction at CS:IP begins (60_exceptions.md R234). -/
def State.begun (s : State) : State :=
  { s with tfAtStart := s.flags.tf, intInhibit := false, waiting := false, startIp := s.ip, pfx := PrefixState.none }

/-- The state in which an instruction comes to its boundary: no prefix is left and no instruction is the first after reset any
more, except that a WAIT that has to look again keeps LOCK and is not over (45_processor_control.md R218, R220; logs 11, 16). -/
def State.ended (t : State) : State :=
  { t with
    pfx := ⟨none, none, t.pfx.lock && t.waiting, 0⟩
    justReset := t.justReset && t.waiting }

/-- The single-step trap where the instruction was begun with TF = 1 (60 R238), but not inside a WAIT that has to look again. -/
def State.trapped (s t : State) : State := if s.tfAtStart = true ∧ s.waiting = false then t.interrupt 1 t.ip else t

/-- `t` holds what the reset sequence establishes (10_state.md R33, 70 R260): flags 0, CS:IP = FFFF:0000, DS = ES = SS = 0,
nothing halted, inhibited or pending, the queue empty. The last line is the model's own (logs 11, 16). -/
def State.IsReset (t : State) : Prop :=
  t.flags = ⟨false, false, false, false, false, false, false, false, false⟩ ∧ t.ip = 0x0000 ∧
    t.seg = ⟨0x0000, 0xFFFF, 0x0000, 0x0000⟩ ∧ t.halted = false ∧ t.intInhibit = false ∧ t.nmiPending = false ∧
    t.staleCode = [] ∧
    t.pfx = PrefixState.none ∧ t.tfAtStart = false ∧ t.waiting = false ∧ t.justReset = true

/-! ### Repeated strings -/

/-- The offset `j` elements of width `w` on from `x`, up with DF = 0 and down with DF = 1 (43_string.md R160). -/
def State.along (s : State) (w : Width) (x : Word) (j : Nat) : Word :=
  if s.flags.df then x - BitVec.ofNat 16 (j * (w.bits / 8)) else x + BitVec.ofNat 16 (j * (w.bits / 8))

/-- The `j`-th source element: at SI in DS or the override segment (43 R160). -/
def State.srcAt (s : State) (w : Width) (j : Nat) : Place := .mem (s.dataSeg .ds) (s.along w s.gpr.si j)

/-- The `j`-th destination element: at ES:DI (43 R160). -/
def State.dstAt (s : State) (w : Width) (j : Nat) : Place := .mem s.seg.es (s.along w s.gpr.di j)

/-- The bytes of the first CX destination elements. -/
def State.dstArea (s : State) (w : Width) : List Nat := (List.range s.gpr.cx.toNat).flatMap fun j => (s.dstAt w j).bytes w

/-- The bytes of the first CX source elements. -/
def State.srcArea (s : State) (w : Width) : List Nat := (List.range s.gpr.cx.toNat).flatMap fun j => (s.srcAt w j).bytes w

/-! ### The invariant -/

/-- What every state has that a run from a well-formed state reaches: memory is in its canonical form, and the remembered
stores are addresses of memory. -/
def State.Inv (s : State) : Prop := s.mem.wf = true ∧ ∀ a ∈ s.staleCode, a < Config.memBytes

/-! ### Affected flags -/

/-- The codes of the affected-flags strings (00_scope.md R9): `-`, `*`, `0`, `1`, `?`. -/
inductive FlagEffect where
  | keep | affected | reset | set | unknown
  deriving DecidableEq, Repr

/-- What a code says of a flag that was `before` and is `after`. -/
def FlagEffect.Allows (e : FlagEffect) (before after : Bool) : Prop :=
  match e with
  | .keep => after = before
  | .affected => True
  | .reset => after = false
  | .set => after = true
  | .unknown => True

/-- One string of the affected-flags table, in the order O D I T S Z A P C (00 R9). -/
structure FlagEffects where
  of : FlagEffect
  df : FlagEffect
  ifl : FlagEffect
  tf : FlagEffect
  sf : FlagEffect
  zf : FlagEffect
  af : FlagEffect
  pf : FlagEffect
  cf : FlagEffect
  deriving DecidableEq, Repr

/-- Every flag is as its code says. -/
def FlagEffects.Allow (e : FlagEffects) (f g : Flags) : Prop :=
  e.of.Allows f.of g.of ∧ e.df.Allows f.df g.df ∧ e.ifl.Allows f.ifl g.ifl ∧ e.tf.Allows f.tf g.tf ∧
    e.sf.Allows f.sf g.sf ∧ e.zf.Allows f.zf g.zf ∧ e.af.Allows f.af g.af ∧ e.pf.Allows f.pf g.pf ∧
    e.cf.Allows f.cf g.cf

/-- `---------`. -/
def FlagEffects.none : FlagEffects := ⟨.keep, .keep, .keep, .keep, .keep, .keep, .keep, .keep, .keep⟩

/-- `*---*****`. -/
def FlagEffects.sums : FlagEffects :=
  ⟨.affected, .keep, .keep, .keep, .affected, .affected, .affected, .affected, .affected⟩

/-- `*---**?**`. -/
def FlagEffects.bits : FlagEffects :=
  ⟨.affected, .keep, .keep, .keep, .affected, .affected, .unknown, .affected, .affected⟩

/-- `*---**?**` with OF and CF written 0, as the note of the row says. -/
def FlagEffects.logic : FlagEffects := { FlagEffects.bits with of := .reset, cf := .reset }

/-- `*-------*`. -/
def FlagEffects.rotates : FlagEffects :=
  ⟨.affected, .keep, .keep, .keep, .keep, .keep, .keep, .keep, .affected⟩

/-- `*********`. -/
def FlagEffects.all : FlagEffects :=
  ⟨.affected, .affected, .affected, .affected, .affected, .affected, .affected, .affected, .affected⟩

/-- `*---*****` without CF. -/
def FlagEffects.sumsKeepCf : FlagEffects := { FlagEffects.sums with cf := .keep }

/-- `?---??*?*`. -/
def FlagEffects.ascii : FlagEffects :=
  ⟨.unknown, .keep, .keep, .keep, .unknown, .unknown, .affected, .unknown, .affected⟩

/-- `?---*****`. -/
def FlagEffects.decimal : FlagEffects := { FlagEffects.sums with of := .unknown }

/-- `*---????*`. -/
def FlagEffects.products : FlagEffects :=
  ⟨.affected, .keep, .keep, .keep, .unknown, .unknown, .unknown, .unknown, .affected⟩

/-- `?---?????`. -/
def FlagEffects.quotients : FlagEffects :=
  ⟨.unknown, .keep, .keep, .keep, .unknown, .unknown, .unknown, .unknown, .unknown⟩

/-- `?---**?*?`. -/
def FlagEffects.bases : FlagEffects :=
  ⟨.unknown, .keep, .keep, .keep, .affected, .affected, .unknown, .affected, .unknown⟩

/-- The affected-flags table (10_state.md R34). -/
def affectedFlags (i : Instr) : FlagEffects :=
  match i with
  | .sahf => { FlagEffects.sums with of := .keep }
  | .popf | .iret => .all
  | .addRmReg .. | .addRmImm .. | .addAccImm .. | .adcRmReg .. | .adcRmImm .. | .adcAccImm .. => .sums
  | .subRmReg .. | .subRmImm .. | .subAccImm .. | .sbbRmReg .. | .sbbRmImm .. | .sbbAccImm .. => .sums
  | .cmpRmReg .. | .cmpRmImm .. | .cmpAccImm .. | .neg .. | .cmps .. | .scas .. => .sums
  | .incRm .. | .incReg .. | .decRm .. | .decReg .. => .sumsKeepCf
  | .aaa | .aas => .ascii
  | .daa | .das => .decimal
  | .mul .. | .imul .. => .products
  | .div .. | .idiv .. => .quotients
  | .aam .. | .aad .. => .bases
  | .shl .. | .shr .. | .sar .. => .bits
  | .rol .. | .ror .. | .rcl .. | .rcr .. => .rotates
  | .andRmReg .. | .andRmImm .. | .andAccImm .. | .testRmReg .. | .testRmImm .. | .testAccImm .. => .logic
  | .orRmReg .. | .orRmImm .. | .orAccImm .. | .xorRmReg .. | .xorRmImm .. | .xorAccImm .. => .logic
  | .int .. | .int3 => { FlagEffects.none with ifl := .reset, tf := .reset }
  | .into => { FlagEffects.none with ifl := .affected, tf := .affected }
  | .clc => { FlagEffects.none with cf := .reset }
  | .cmc => { FlagEffects.none with cf := .affected }
  | .stc => { FlagEffects.none with cf := .set }
  | .cld => { FlagEffects.none with df := .reset }
  | .std => { FlagEffects.none with df := .set }
  | .cli => { FlagEffects.none with ifl := .reset }
  | .sti => { FlagEffects.none with ifl := .set }
  | .movRmReg .. | .movRmImm .. | .movRegImm .. | .movAccMem .. | .movMemAcc .. | .movSregRm .. | .movRmSreg ..
  | .pushRm .. | .pushReg .. | .pushSreg .. | .popRm .. | .popReg .. | .popSreg .. | .xchgRmReg .. | .xchgAccReg ..
  | .inFixed .. | .inVariable .. | .outFixed .. | .outVariable .. | .xlat | .lea .. | .lds .. | .les .. | .lahf
  | .pushf | .cbw | .cwd | .not .. | .rep .. | .movs .. | .lods .. | .stos ..
  | .callRel .. | .callRm .. | .callFar .. | .callFarMem .. | .jmpRel .. | .jmpShort .. | .jmpRm .. | .jmpFar ..
  | .jmpFarMem .. | .ret | .retImm .. | .retFar | .retFarImm ..
  | .je .. | .jl .. | .jle .. | .jb .. | .jbe .. | .jp .. | .jo .. | .js .. | .jne .. | .jnl .. | .jnle .. | .jnb ..
  | .jnbe .. | .jnp .. | .jno .. | .jns .. | .loop .. | .loopz .. | .loopnz .. | .jcxz ..
  | .hlt | .wait | .esc .. | .lock | .seg .. => .none

end Sys2Proof.Machine
end

