-- ==== Sys2Proof/Certificates/Slice0/Obligations.lean ====
section
/-! DEFINITION. The statements for the provers, each with the rule of spec/ it formalises. OBLIGATIONS.json lists them. -/

open Sys2Proof Sys2Proof.Machine

/-! ### Encoding -/

/-- Decoding the bytes that encode a well-formed instruction gives the instruction and leaves the bytes after it
(30_encoding.md R60 to R76). -/
def Obligations.DecodeOfEncode : Prop :=
  ∀ (i : Instr) (rest : List Byte), i.wellFormed = true → decode (encode i ++ rest) = .ok (i, rest)

/-- What the decoder accepts is well formed, and encoding it gives back exactly the bytes that were read: no bit of an
encoding is dropped (30 R60 to R76). -/
def Obligations.EncodeOfDecode : Prop :=
  ∀ (bytes rest : List Byte) (i : Instr), decode bytes = .ok (i, rest) → i.wellFormed = true ∧ encode i ++ rest = bytes

/-- Without prefixes an instruction is 1 to 6 bytes long (30 R60). -/
def Obligations.EncodedLength : Prop :=
  ∀ i : Instr, 1 ≤ (encode i).length ∧ (encode i).length ≤ 6

/-- A few words written out from the encodings of spec/ decode to the instructions they stand for: `89 D8` MOV AX, BX;
`8B 47 02` MOV AX, [BX+2]; `83 C1 80` ADD CX, -128; `81 C1 00 80` ADD CX, 0x8000; `D2 E8` SHR AL, CL; `F2 AE` REPNE then
SCASB; `9A 00 02 00 30` CALL 3000:0200; `C4 3C` LES DI, [SI]; `8E D0` MOV SS, AX; `26` the ES override. -/
def Obligations.SampleWordsDecode : Prop :=
  decode [0x89, 0xD8] = .ok (.movRmReg .fromReg .word .bxBl (.reg .axAl), []) ∧
  decode [0x8B, 0x47, 0x02] = .ok (.movRmReg .toReg .word .axAl (.mem (.disp8 .bx 2)), []) ∧
  decode [0x83, 0xC1, 0x80] = .ok (.addRmImm (.reg .cxCl) (.s1w1 0x80), []) ∧
  decode [0x81, 0xC1, 0x00, 0x80] = .ok (.addRmImm (.reg .cxCl) (.s0w1 0x8000), []) ∧
  decode [0xD2, 0xE8] = .ok (.shr .cl .byte (.reg .axAl), []) ∧
  decode [0xF2, 0xAE] = .ok (.rep false, [0xAE]) ∧
  decode [0x9A, 0x00, 0x02, 0x00, 0x30] = .ok (.callFar 0x0200 0x3000, []) ∧
  decode [0xC4, 0x3C] = .ok (.les .diBh (.noDisp .si), []) ∧
  decode [0x8E, 0xD0] = .ok (.movSregRm .ss (.reg .axAl), []) ∧
  decode [0x26] = .ok (.seg .es, [])

/-- The encodings that match no row are refused, whatever follows: first bytes without a row; the holes of the groups; 8F,
C6, C7 with another reg than 000; 8C, 8E with bit 5 set; D4, D5 with a second byte other than 0x0A; LEA, LDS, LES, FF /3,
FF /5 with mod = 11 (30 R79 items 1 to 7). -/
def Obligations.EncodingsWithoutMeaning : Prop :=
  ∀ rest : List Byte,
    (∀ b ∈ ([0x60, 0x61, 0x62, 0x63, 0x64, 0x65, 0x66, 0x67, 0x68, 0x69, 0x6A, 0x6B, 0x6C, 0x6D, 0x6E, 0x6F, 0xC0, 0xC1,
        0xC8, 0xC9, 0xD6, 0xF1] : List Byte), decode (b :: rest) = .error (.unassigned b)) ∧
    (∀ b m : Byte,
      (b ∈ ([0x82, 0x83] : List Byte) ∧ m.extractLsb' 3 3 ∈ ([0b001, 0b100, 0b110] : List (BitVec 3))) ∨
      (b ∈ ([0xD0, 0xD1, 0xD2, 0xD3] : List Byte) ∧ m.extractLsb' 3 3 = 0b110) ∨
      (b ∈ ([0xF6, 0xF7] : List Byte) ∧ m.extractLsb' 3 3 = 0b001) ∨
      (b = 0xFE ∧ m.extractLsb' 3 3 ∈ ([0b010, 0b011, 0b100, 0b101, 0b110, 0b111] : List (BitVec 3))) ∨
      (b = 0xFF ∧ m.extractLsb' 3 3 = 0b111) ∨
      (b ∈ ([0x8F, 0xC6, 0xC7] : List Byte) ∧ m.extractLsb' 3 3 ≠ 0b000) ∨
      (b ∈ ([0x8C, 0x8E] : List Byte) ∧ m.getLsbD 5 = true) →
        decode (b :: m :: rest) = .error (.unassignedSecond b m)) ∧
    (∀ b m : Byte, b ∈ ([0xD4, 0xD5] : List Byte) → m ≠ 0x0A → decode (b :: m :: rest) = .error (.adjustBase m)) ∧
    (∀ b m : Byte, m.extractLsb' 6 2 = 0b11 →
      b ∈ ([0x8D, 0xC4, 0xC5] : List Byte) ∨ (b = 0xFF ∧ m.extractLsb' 3 3 ∈ ([0b011, 0b101] : List (BitVec 3))) →
        decode (b :: m :: rest) = .error (.registerOperand b m))

/-! ### The whole machine -/

/-- Every step keeps the invariant: memory in its canonical form, the remembered stores inside memory (20_memory.md R40,
R41). The canonical form and the record of stores are the model's own shape of memory and of the queue (logs 3, 10). -/
def Obligations.StepKeepsInvariant : Prop :=
  ∀ s t : State, s.Inv → step s = .next t → t.Inv

/-- The state right after reset has the invariant. -/
def Obligations.ResetHasInvariant : Prop := State.reset.Inv

/-- Which instructions write which segment register: ES only MOV, POP and LES; SS only MOV and POP; DS only MOV, POP and LDS;
CS only intersegment CALL, JMP and RET, INT, INTO, IRET and the divide error (10_state.md R23, R32). -/
def Obligations.SegmentRegisterWriters : Prop :=
  ∀ (i : Instr) (s t : State), exec i s = .next t →
    (t.seg.es = s.seg.es ∨ (∃ rm, i = .movSregRm .es rm) ∨ i = .popSreg .es ∨ (∃ r m, i = .les r m)) ∧
    (t.seg.ss = s.seg.ss ∨ (∃ rm, i = .movSregRm .ss rm) ∨ i = .popSreg .ss) ∧
    (t.seg.ds = s.seg.ds ∨ (∃ rm, i = .movSregRm .ds rm) ∨ i = .popSreg .ds ∨ (∃ r m, i = .lds r m)) ∧
    (t.seg.cs = s.seg.cs ∨ (∃ off sg, i = .callFar off sg) ∨ (∃ m, i = .callFarMem m) ∨ (∃ off sg, i = .jmpFar off sg) ∨
      (∃ m, i = .jmpFarMem m) ∨ i = .retFar ∨ (∃ d, i = .retFarImm d) ∨ (∃ k, i = .int k) ∨ i = .int3 ∨ i = .into ∨
      i = .iret ∨ divideErrorDue i s = true)

/-- The affected-flags table: after every instruction, every flag marked `-` is as it was, every flag marked `0` is 0, every
flag marked `1` is 1; INTO clears IF and TF only if the interrupt is taken. A divide that ends in the divide error has
nothing marked: the interrupt it raises clears IF and TF, and only DF is as it was (10 R34; 60_exceptions.md R231, R233).
That AAM with base 0, which no encoding reaches, raises the divide error as the divides do is the model's choice, read from
41 R134 (log 17, DEDUCED). -/
def Obligations.AffectedFlagsTable : Prop :=
  ∀ (i : Instr) (s t : State), exec i s = .next t →
    (divideErrorDue i s = false → (affectedFlags i).Allow s.flags t.flags) ∧
    (divideErrorDue i s = true → t.flags.df = s.flags.df ∧ t.flags.ifl = false ∧ t.flags.tf = false) ∧
    (i = .into → s.flags.of = false → t.flags = s.flags) ∧
    (i = .into → s.flags.of = true → t.flags = { s.flags with ifl := false, tf := false })

/-- Who writes the hidden state and the ports: `halted` is set only by HLT; `int_inhibit` only by MOV and POP to a segment
register and STI; the prefix state only by the prefixes; IN reads one port and takes the platform's next one or two bytes, OUT
writes one port, no other instruction touches a port; the host's inputs and the NMI latch move only inside a repeated string
instruction; no instruction writes `tf_at_start` or the offset of the instruction's first byte (10 R30, R31; 20 R48; 30 R75;
43 R161; 45 R217; 60 R237). `waiting`, `justReset`, `testLevel`, the lists of inputs, of answers and of port accesses are the model's choice
(logs 6, 8, 11, 16). -/
def Obligations.HiddenStateWriters : Prop :=
  ∀ (i : Instr) (s t : State), exec i s = .next t →
    (t.halted = true → s.halted = true ∨ i = .hlt) ∧
    (t.intInhibit = s.intInhibit ∨ (∃ sr rm, i = .movSregRm sr rm) ∨ (∃ sr, i = .popSreg sr) ∨ i = .sti) ∧
    (t.pfx = s.pfx ∨ i.actsAsPrefix = true) ∧
    (∀ w, (∃ p, i = .inFixed w p) ∨ i = .inVariable w →
      (∃ p, t.io = s.io ++ [.read p w]) ∧ t.portIn = s.portIn.drop (w.bits / 8)) ∧
    (∀ w, (∃ p, i = .outFixed w p) ∨ i = .outVariable w →
      (∃ p v, t.io = s.io ++ [.write p w v]) ∧ t.portIn = s.portIn) ∧
    ((∀ w p, i ≠ .inFixed w p ∧ i ≠ .outFixed w p) → (∀ w, i ≠ .inVariable w ∧ i ≠ .outVariable w) →
      t.io = s.io ∧ t.portIn = s.portIn) ∧
    ((t.inputs = s.inputs ∧ t.nmiPending = s.nmiPending) ∨ (i.isStringPrimitive = true ∧ s.pfx.rep ≠ none)) ∧
    (t.waiting = s.waiting ∨ i = .wait) ∧
    t.tfAtStart = s.tfAtStart ∧ t.startIp = s.startIp ∧ t.justReset = s.justReset ∧ t.testLevel = s.testLevel

/-- A step runs the decoded instruction. Unless the machine is halted or RESET comes at the start or in the instruction, the
step is the instruction at CS:IP with its prefixes, from the state in which it has begun, and then the boundary, with the
prefixes over. When the bytes at CS:IP decode to an instruction that is no prefix and none of them may be stale in the
prefetch queue, that is the instruction's meaning, from the state whose IP is past it; with prefixes it is what
PrefixesActOnNext says of `runInstr` (30 R75, R76; 45 R220; 60 R234). How stale bytes, RESET and the first instruction after
reset are held, and that LOCK lasts through the boundary between two looks of a WAIT, is the model's choice (logs 6, 7, 10, 11,
16). -/
def Obligations.StepRunsDecoded : Prop :=
  (∀ s : State, s.Runs → s.halted = false →
    step s = finishInstr (runInstr Config.codeSegmentBytes s.begun) ∧
    ∀ (i : Instr) (rest : List Byte), decode s.codeBytes = .ok (i, rest) →
      (∀ a ∈ s.codeAddrs (6 - rest.length), a ∉ s.staleCode) → i.actsAsPrefix = false →
      step s = finishInstr (exec i { s.begun with ip := s.ip + BitVec.ofNat 16 (6 - rest.length) })) ∧
  ∀ t : State, (t.justReset = false ∨ t.input.reset ≠ .inactive ∨ (t.nmiPending = false ∧ t.input.nmiEdge = false)) →
    finishInstr (.next t) = .next t.ended.boundary

/-- Prefixes act on the instruction that follows them, the last of a kind wins, and no boundary lies between: a segment
override, REP or LOCK at CS:IP is recorded and the instruction goes on with the next byte; then the instruction itself
runs, except that REP before anything but a string primitive is refused, and so is a code segment that holds nothing but
prefixes (30 R75, R79 item 9; 43 R161; 45 R220, R221). It holds whatever is done with the instruction: running it is `runInstr`.
The bound on the prefix bytes is the model's choice (log 9). -/
def Obligations.PrefixesActOnNext : Prop :=
  (∀ (fuel : Nat) (s : State), runInstr fuel s = runWith exec fuel s) ∧
  ∀ (finish : Instr → State → Host.Outcome State Fault Refusal) (s : State),
    runWith finish 0 s = .refused .onlyPrefixBytes ∧
    ∀ (fuel : Nat) (i : Instr) (rest : List Byte), decode s.codeBytes = .ok (i, rest) →
      (∀ a ∈ s.codeAddrs (6 - rest.length), a ∉ s.staleCode) →
      (∀ sr, i = .seg sr → runWith finish (fuel + 1) s =
        runWith finish fuel { s with ip := s.ip + 1, pfx := { s.pfx with seg := some sr, count := s.pfx.count + 1 } }) ∧
      (∀ z, i = .rep z → runWith finish (fuel + 1) s =
        runWith finish fuel { s with ip := s.ip + 1, pfx := { s.pfx with rep := some z, count := s.pfx.count + 1 } }) ∧
      (i = .lock → runWith finish (fuel + 1) s =
        runWith finish fuel { s with ip := s.ip + 1, pfx := { s.pfx with lock := true, count := s.pfx.count + 1 } }) ∧
      (i.actsAsPrefix = false → (s.pfx.rep = none ∨ i.isStringPrimitive = true) →
        runWith finish (fuel + 1) s = finish i { s with ip := s.ip + BitVec.ofNat 16 (6 - rest.length) }) ∧
      (i.actsAsPrefix = false → s.pfx.rep ≠ none → i.isStringPrimitive = false →
        runWith finish (fuel + 1) s = .refused .repBeforeNonString)

/-- What the step refuses: bytes at CS:IP that are no instruction; an instruction one of whose bytes was written inside
the prefetch window with no taken transfer since; and an NMI edge delivered before the first instruction after reset is over
(30 R79; 20 R54; 93_implementation_defined.md U15). That the first two are refused also where RESET comes in the instruction and
cuts it short, and how the written bytes and the first instruction are remembered, is the model's choice (logs 7, 10, 16). -/
def Obligations.StepRefusesUnknownBytes : Prop :=
  (∀ s : State, s.input.reset ≠ .atStart → s.halted = false →
    (∀ e, decode s.codeBytes = .error e → step s = .refused (.undecodable e)) ∧
    (∀ i rest, decode s.codeBytes = .ok (i, rest) → (∃ a ∈ s.codeAddrs (6 - rest.length), a ∈ s.staleCode) →
      step s = .refused .stalePrefetch)) ∧
  ∀ t : State, t.justReset = true → t.input.reset = .inactive → (t.nmiPending = true ∨ t.input.nmiEdge = true) →
    finishInstr (.next t) = .refused .nmiBeforeFirstBoundary

/-- The RESET input, at any time. Seen when a step begins, it resets the machine. In an instruction, after its prefixes, it
aborts it: the machine resets, the bytes the instruction stores to are left open, and whether it made its port access is left
open. At a boundary it aborts the interrupt sequences begun there: the bytes they push to are left open. The reset sequence
itself changes neither memory, which only other agents may write meanwhile, nor the ports; the general registers are left open
(70_reset_and_hazards.md R260; 10 R33). The host's records, and which bytes an aborted instruction leaves open, are the model's
choice (logs 6, 7, 13). -/
def Obligations.ResetInputResets : Prop :=
  ∀ s : State,
    ((s.input.reset = .atStart ∨ (s.input.reset = .inInstr ∧ s.halted = true)) → ∃ t, step s = .next t ∧ t.IsReset ∧
      s.mem.SameOff t.mem s.agentBytes ∧ t.portIn = s.portIn ∧ t.io = s.io ∧ t.inputs = s.inputs.tail ∧
      t.testLevel = s.testLevel) ∧
    (s.input.reset = .inInstr → s.halted = false → step s = runWith abortInstr Config.codeSegmentBytes s.begun) ∧
    (∀ (i : Instr) (u : State), exec i { s with pfx := { s.pfx with rep := none } } = .next u →
      ∃ t, abortInstr i s = .next t ∧ t.IsReset ∧ s.mem.SameOff t.mem (storesOf i s ++ s.agentBytes) ∧
        ((t.portIn = s.portIn ∧ t.io = s.io) ∨ (t.portIn = u.portIn ∧ t.io = u.io)) ∧ t.inputs = s.inputs.tail ∧
        t.testLevel = s.testLevel) ∧
    (s.input.reset = .atBoundary → s.boundary.IsReset ∧
      s.mem.SameOff s.boundary.mem (s.pushBytes s.wordsDue ++ s.agentBytes) ∧
      s.boundary.portIn = s.portIn ∧ s.boundary.io = s.io ∧ s.boundary.inputs = s.pastBoundary.inputs ∧ s.boundary.testLevel = s.testLevel)

/-- The values the spec gives for reset, and the first fetch at 0xFFFF0 (10 R33). What State.reset holds in the general
registers and in memory is the model's choice (logs 2, 3) and not stated here. -/
def Obligations.ResetValues : Prop :=
  State.reset.flags = ⟨false, false, false, false, false, false, false, false, false⟩ ∧
  State.reset.flags.image = 0xF002 ∧ State.reset.ip = 0x0000 ∧ State.reset.seg.cs = 0xFFFF ∧
  State.reset.seg.ds = 0x0000 ∧ State.reset.seg.es = 0x0000 ∧ State.reset.seg.ss = 0x0000 ∧
  State.reset.halted = false ∧ State.reset.intInhibit = false ∧ State.reset.nmiPending = false ∧
  State.reset.staleCode = [] ∧ (State.reset.codeAddrs 1) = [0xFFFF0]

/-- The halted machine: its step is the boundary alone, of the state in which nothing is begun; this holds for RESET at that
boundary as well, where ResetInputResets says what the boundary is, and RESET at the start or in the step is there too. Without
RESET only the external checks are made: NMI first, then INTR with IF = 1, and without either it stays halted with no register
or flag changed, and memory only where other agents write it (45 R217; 60 R234, R236; 70 R260). The list of host records and the
places of RESET in them are the model's choice (logs 6, 7); what passing a boundary does to them and to memory is in
MemoryWriters. -/
def Obligations.HaltedStep : Prop :=
  ∀ s : State, s.halted = true →
    let i : State := { s with tfAtStart := false, intInhibit := false, waiting := false, pfx := PrefixState.none }
    let b : State := { i.pastBoundary with nmiPending := false }
    (s.Runs → step s = .next i.boundary) ∧
    (s.input.reset = .inactive →
      ((s.nmiPending = true ∨ s.input.nmiEdge = true) → step s = .next (b.interrupt 2 s.ip)) ∧
      (∀ k, s.nmiPending = false → s.input.nmiEdge = false → s.flags.ifl = true → s.input.intr = some k →
        step s = .next (b.interrupt k s.ip)) ∧
      (s.nmiPending = false → s.input.nmiEdge = false → (s.flags.ifl = false ∨ s.input.intr = none) →
        step s = .next b)) ∧
    (s.input.writes = [] → b = { i with inputs := s.inputs.tail, nmiPending := false })

/-- The instruction boundary: nothing is recognised where it is inhibited, but an NMI edge stays latched; otherwise NMI goes
before INTR, INTR is taken with IF = 1 only, and the single-step trap comes last, on top of the other (60 R234, R236, R237,
R238). The list of host records and the field `waiting` are the model's choice (logs 6, 11); what passing the boundary does to
the records and, where other agents write, to memory is in MemoryWriters. -/
def Obligations.BoundaryPriority : Prop :=
  ∀ s : State, s.input.reset = .inactive →
    let b : State := { s.pastBoundary with nmiPending := false }
    (s.intInhibit = true → s.boundary = s.pastBoundary) ∧
    (s.intInhibit = false → (s.nmiPending = true ∨ s.input.nmiEdge = true) →
      s.boundary = s.trapped (b.interrupt 2 s.ip)) ∧
    (∀ k, s.intInhibit = false → s.nmiPending = false → s.input.nmiEdge = false → s.flags.ifl = true →
      s.input.intr = some k → s.boundary = s.trapped (b.interrupt k s.ip)) ∧
    (s.intInhibit = false → s.nmiPending = false → s.input.nmiEdge = false →
      (s.flags.ifl = false ∨ s.input.intr = none) → s.boundary = s.trapped b) ∧
    (s.input.writes = [] →
      s.pastBoundary = { s with inputs := s.inputs.tail, nmiPending := s.nmiPending || s.input.nmiEdge })

/-- The interrupt sequence, which every interrupt is: FLAGS, CS and the saved offset pushed, IF and TF cleared, IP and CS
loaded from entry `k` at physical address 4*k, a halt ended, the bytes fetched ahead discarded, nothing else changed
(60 R232, R233). -/
def Obligations.InterruptSequenceEffects : Prop :=
  ∀ (s : State) (k : Byte) (ret : Word), s.mem.wf = true → s.Interrupted (s.interrupt k ret) k ret

/-! ### State, addresses, memory -/

/-- Physical address formation, and that a byte access of a segment reads that address (20 R41, R44). -/
def Obligations.PhysicalAddressFormation : Prop :=
  ∀ (s : State) (sg off : Word),
    phys sg off = (sg.toNat * 16 + off.toNat) % 2 ^ 20 ∧ s.readByte sg off = s.mem.read (phys sg off)

/-- The effective-address table with the default segments, and the override (30 R63, R64; 20 R42; 45 R221). -/
def Obligations.EffectiveAddressTable : Prop :=
  ∀ (s : State) (a : Word) (d : Byte),
    s.ea (.noDisp .bxSi) = s.gpr.bx + s.gpr.si ∧ s.ea (.noDisp .bxDi) = s.gpr.bx + s.gpr.di ∧
    s.ea (.noDisp .bpSi) = s.gpr.bp + s.gpr.si ∧ s.ea (.noDisp .bpDi) = s.gpr.bp + s.gpr.di ∧
    s.ea (.noDisp .si) = s.gpr.si ∧ s.ea (.noDisp .di) = s.gpr.di ∧ s.ea (.noDisp .bx) = s.gpr.bx ∧
    s.ea (.direct a) = a ∧ s.ea (.disp16 .bp a) = s.gpr.bp + a ∧
    (∀ base, s.ea (.disp16 base a) = s.ea (.noDisp base) + a ∧ s.ea (.disp8 base d) = s.ea (.noDisp base) + d.signExtend 16) ∧
    (s.pfx.seg = none →
      s.eaSeg (.direct a) = s.seg.ds ∧
      (∀ base ∈ ([.bxSi, .bxDi, .si, .di, .bx] : List EaBase),
        s.eaSeg (.noDisp base) = s.seg.ds ∧ s.eaSeg (.disp8 base d) = s.seg.ds ∧ s.eaSeg (.disp16 base a) = s.seg.ds) ∧
      (∀ base ∈ ([.bpSi, .bpDi, .bp] : List EaBase),
        s.eaSeg (.noDisp base) = s.seg.ss ∧ s.eaSeg (.disp8 base d) = s.seg.ss ∧ s.eaSeg (.disp16 base a) = s.seg.ss)) ∧
    (∀ sr m, s.pfx.seg = some sr → s.eaSeg m = s.seg.get sr)

/-- The eight byte registers are the halves of AX, CX, DX and BX: writing one changes its half alone (10 R21). -/
def Obligations.ByteRegistersAreHalves : Prop :=
  ∀ (g : Gpr) (v : Byte),
    g.ax = g.getByte .spAh ++ g.getByte .axAl ∧ g.cx = g.getByte .bpCh ++ g.getByte .cxCl ∧
    g.dx = g.getByte .siDh ++ g.getByte .dxDl ∧ g.bx = g.getByte .diBh ++ g.getByte .bxBl ∧
    g.setByte .axAl v = { g with ax := g.getByte .spAh ++ v } ∧
    g.setByte .cxCl v = { g with cx := g.getByte .bpCh ++ v } ∧
    g.setByte .dxDl v = { g with dx := g.getByte .siDh ++ v } ∧
    g.setByte .bxBl v = { g with bx := g.getByte .diBh ++ v } ∧
    g.setByte .spAh v = { g with ax := v ++ g.getByte .axAl } ∧
    g.setByte .bpCh v = { g with cx := v ++ g.getByte .cxCl } ∧
    g.setByte .siDh v = { g with dx := v ++ g.getByte .dxDl } ∧
    g.setByte .diBh v = { g with bx := v ++ g.getByte .bxBl }

/-- Mixed-width views: a word store followed by byte loads sees the two halves, the low one at the lower offset; two byte
stores followed by a word load see high ++ low; offsets wrap inside the segment (20 R43, R44, R58). -/
def Obligations.MixedWidthViews : Prop :=
  ∀ (s : State) (sg off : Word) (hi lo : Byte), s.mem.wf = true →
    (s.writeWord sg off (hi ++ lo)).readByte sg off = lo ∧
    (s.writeWord sg off (hi ++ lo)).readByte sg (off + 1) = hi ∧
    ((s.writeByte sg off lo).writeByte sg (off + 1) hi).readWord sg off = hi ++ lo

/-- FLAGS as a word: the nine flags at their masks, the X bits read as 0xF002 and what is written to them is discarded
(10 R25, R27; log 15). -/
def Obligations.FlagsWordLayout : Prop :=
  (∀ f : Flags, Flags.ofImage f.image = f) ∧
  (∀ v : Word, (Flags.ofImage v).image = (v &&& 0x0FD5) ||| 0xF002) ∧
  (∀ v : Word, Flags.ofImage v =
    { of := decide (v &&& 0x0800 ≠ 0), df := decide (v &&& 0x0400 ≠ 0), ifl := decide (v &&& 0x0200 ≠ 0),
      tf := decide (v &&& 0x0100 ≠ 0), sf := decide (v &&& 0x0080 ≠ 0), zf := decide (v &&& 0x0040 ≠ 0),
      af := decide (v &&& 0x0010 ≠ 0), pf := decide (v &&& 0x0004 ≠ 0), cf := decide (v &&& 0x0001 ≠ 0) })

/-- The stack primitives: push16 lowers SP by 2 and stores the word at SS:SP; pop16 reads the word at SS:SP and raises SP by
2; a pop gives back what was pushed (20 R56). -/
def Obligations.StackPrimitives : Prop :=
  ∀ (s : State) (v : Word), s.mem.wf = true →
    s.PushedOnly (s.push v) [v] ∧
    s.top = s.readWord s.seg.ss s.gpr.sp ∧ s.popped = { s with gpr := { s.gpr with sp := s.gpr.sp + 2 } } ∧
    (s.push v).top = v ∧ (s.push v).popped.gpr = s.gpr

/-! ### Data transfer -/

/-- MOV between registers, memory, immediates and from segment registers: the destination takes the source's value and
nothing else changes (40_data_transfer.md R90 to R94, R96). -/
def Obligations.MovCopiesSource : Prop :=
  ∀ s : State, s.mem.wf = true →
    (∀ d w reg rm, ∃ t, exec (.movRmReg d w reg rm) s = .next t ∧
      s.WroteOnly t w (s.rmrDst d reg rm) (s.read w (s.rmrSrc d reg rm))) ∧
    (∀ rm imm, ∃ t, exec (.movRmImm rm imm) s = .next t ∧ s.WroteOnly t imm.width (s.place rm) (Imm.value imm)) ∧
    (∀ reg imm, ∃ t, exec (.movRegImm reg imm) s = .next t ∧ s.WroteOnly t imm.width (.reg reg) (Imm.value imm)) ∧
    (∀ w addr, ∃ t, exec (.movAccMem w addr) s = .next t ∧
      s.WroteOnly t w (.reg .axAl) (s.read w (.mem (s.dataSeg .ds) addr))) ∧
    (∀ w addr, ∃ t, exec (.movMemAcc w addr) s = .next t ∧
      s.WroteOnly t w (.mem (s.dataSeg .ds) addr) (s.read w (.reg .axAl))) ∧
    (∀ sr rm, ∃ t, exec (.movRmSreg sr rm) s = .next t ∧ s.WroteOnly t .word (s.place rm) (s.seg.get sr))

/-- MOV and POP to a segment register: the register takes the word, the next boundary is inhibited, POP also moves SP, and
nothing else changes; to CS both are refused (40 R95, R102; 30 R79 item 8). -/
def Obligations.SegmentRegisterLoads : Prop :=
  ∀ s : State,
    (∀ sr rm, sr ≠ .cs → exec (.movSregRm sr rm) s =
      .next { s with seg := s.seg.set sr (s.read .word (s.place rm)), intInhibit := true }) ∧
    (∀ sr, sr ≠ .cs → exec (.popSreg sr) s = .next { s with
      gpr := { s.gpr with sp := s.gpr.sp + 2 }, seg := s.seg.set sr (s.readWord s.seg.ss s.gpr.sp), intInhibit := true }) ∧
    (∀ rm, exec (.movSregRm .cs rm) s = .refused .csLoad) ∧ exec (.popSreg .cs) s = .refused .csLoad

/-- PUSH and PUSHF: the word is pushed and nothing else changes; PUSH SP pushes the lowered SP, and through FF /6 it pushes
either SP (40 R97 to R99, R115). -/
def Obligations.PushStoresWord : Prop :=
  ∀ s : State, s.mem.wf = true →
    (∀ rm, rm ≠ .reg .spAh → ∃ t, exec (.pushRm rm) s = .next t ∧ s.PushedOnly t [s.read .word (s.place rm)]) ∧
    (∃ t v, exec (.pushRm (.reg .spAh)) s = .next t ∧ (v = s.gpr.sp ∨ v = s.gpr.sp - 2) ∧
      ({ s with freeCount := t.freeCount } : State).PushedOnly t [v]) ∧
    (∀ reg, reg ≠ .spAh → ∃ t, exec (.pushReg reg) s = .next t ∧ s.PushedOnly t [s.gpr.get reg]) ∧
    (∃ t, exec (.pushReg .spAh) s = .next t ∧ s.PushedOnly t [s.gpr.sp - 2]) ∧
    (∀ sr, ∃ t, exec (.pushSreg sr) s = .next t ∧ s.PushedOnly t [s.seg.get sr]) ∧
    (∃ t, exec .pushf s = .next t ∧ s.PushedOnly t [s.flags.image])

/-- POP and POPF: the word at SS:SP goes to the destination, whose address is formed from the registers at the start; SP is
raised by 2, except that POP SP leaves the word popped in SP; nothing else changes (40 R100, R101, R116). -/
def Obligations.PopTakesWord : Prop :=
  ∀ s : State, s.mem.wf = true →
    let v := s.readWord s.seg.ss s.gpr.sp
    let up : State := { s with gpr := { s.gpr with sp := s.gpr.sp + 2 } }
    (∀ rm, ∃ t, exec (.popRm rm) s = .next t ∧ up.WroteOnly t .word (s.place rm) v) ∧
    (∀ reg, reg ≠ .spAh → exec (.popReg reg) s = .next { up with gpr := up.gpr.set reg v }) ∧
    exec (.popReg .spAh) s = .next { s with gpr := { s.gpr with sp := v } } ∧
    exec .popf s = .next { up with flags :=
      { of := v.getLsbD 11, df := v.getLsbD 10, ifl := v.getLsbD 9, tf := v.getLsbD 8, sf := v.getLsbD 7,
        zf := v.getLsbD 6, af := v.getLsbD 4, pf := v.getLsbD 2, cf := v.getLsbD 0 } }

/-- XCHG: the two operands take each other's value and nothing else changes (40 R103, R104). -/
def Obligations.XchgSwapsOperands : Prop :=
  ∀ s : State, s.mem.wf = true →
    (∀ reg, ∃ t, exec (.xchgAccReg reg) s = .next t ∧ t = { s with gpr := t.gpr } ∧
      t.gpr.ax = s.gpr.get reg ∧ t.gpr.get reg = s.gpr.ax ∧ ∀ q, q ≠ .axAl → q ≠ reg → t.gpr.get q = s.gpr.get q) ∧
    (∀ w reg r, ∃ t, exec (.xchgRmReg w reg (.reg r)) s = .next t ∧ t = { s with gpr := t.gpr } ∧
      t.read w (.reg r) = s.read w (.reg reg) ∧ t.read w (.reg reg) = s.read w (.reg r) ∧
      (∀ q, q ≠ r → q ≠ reg → t.read w (.reg q) = s.read w (.reg q)) ∧
      (w = .byte → t.gpr.sp = s.gpr.sp ∧ t.gpr.bp = s.gpr.bp ∧ t.gpr.si = s.gpr.si ∧ t.gpr.di = s.gpr.di)) ∧
    (∀ w reg m, ∃ t, exec (.xchgRmReg w reg (.mem m)) s = .next t ∧
      t.read w (s.place (.mem m)) = s.read w (.reg reg) ∧ t.read w (.reg reg) = s.read w (s.place (.mem m)) ∧
      s.gpr.SameBut t.gpr w (.reg reg) ∧ s.mem.SameOff t.mem ((s.place (.mem m)).bytes w) ∧
      s.Remembers t ((s.place (.mem m)).bytes w) ∧
      t = { s with gpr := t.gpr, mem := t.mem, staleCode := t.staleCode })

/-- IN: the accumulator takes what the platform answers, byte by byte, the low byte first; an answer the host does not give is
left open, and for a word of which it gives the low byte alone, only the high one is; the access is recorded; nothing else
changes. A word at port 0xFFFF is refused (40 R105, R106; 20 R48). The lists of answers and accesses are the model's choice
(log 8). -/
def Obligations.InTakesPortBytes : Prop :=
  ∀ (s : State) (i : Instr) (w : Width) (p : Word),
    ((∃ port : Byte, i = .inFixed w port ∧ p = port.setWidth 16) ∨ (i = .inVariable w ∧ p = s.gpr.dx)) →
    ((p = 0xFFFF ∧ w = .word) → exec i s = .refused .wordPortFFFF) ∧
    (¬ (p = 0xFFFF ∧ w = .word) → ∃ t, exec i s = .next t ∧
      t = { s with
        gpr := t.gpr, portIn := s.portIn.drop (w.bits / 8), io := s.io ++ [.read p w], freeCount := t.freeCount } ∧
      s.gpr.SameBut t.gpr w (.reg .axAl) ∧
      (∀ lo rest, s.portIn = lo :: rest → t.gpr.getByte .axAl = lo) ∧
      (w = .word → ∀ lo hi rest, s.portIn = lo :: hi :: rest → t.gpr.ax = hi ++ lo))

/-- OUT: the accumulator goes to the port as a recorded event and nothing else changes. A word at port 0xFFFF is refused
(40 R107, R108; 20 R48). The list of accesses is the model's choice (log 8). -/
def Obligations.OutRecordsAccumulator : Prop :=
  ∀ s : State,
    (∀ port : Byte, exec (.outFixed .byte port) s =
      .next { s with io := s.io ++ [.write (port.setWidth 16) .byte ((s.gpr.getByte .axAl).setWidth 16)] }) ∧
    (∀ port : Byte, exec (.outFixed .word port) s =
      .next { s with io := s.io ++ [.write (port.setWidth 16) .word s.gpr.ax] }) ∧
    exec (.outVariable .byte) s =
      .next { s with io := s.io ++ [.write s.gpr.dx .byte ((s.gpr.getByte .axAl).setWidth 16)] } ∧
    (s.gpr.dx ≠ 0xFFFF → exec (.outVariable .word) s =
      .next { s with io := s.io ++ [.write s.gpr.dx .word s.gpr.ax] }) ∧
    (s.gpr.dx = 0xFFFF → exec (.outVariable .word) s = .refused .wordPortFFFF)

/-- XLAT, LEA, LDS, LES: XLAT adds AL unsigned, LEA reads no memory, LDS and LES read the offset word at EA and the segment
word at EA + 2 (40 R109 to R112). -/
def Obligations.AddressLoadsEffects : Prop :=
  ∀ s : State,
    exec .xlat s = .next { s with
      gpr := s.gpr.setByte .axAl
        (s.readByte (s.dataSeg .ds) (s.gpr.bx + BitVec.ofNat 16 (s.gpr.getByte .axAl).toNat)) } ∧
    (∀ reg m, exec (.lea reg m) s = .next { s with gpr := s.gpr.set reg (s.ea m) }) ∧
    (∀ reg m, exec (.lds reg m) s = .next { s with
      gpr := s.gpr.set reg (s.readWord (s.eaSeg m) (s.ea m))
      seg := { s.seg with ds := s.readWord (s.eaSeg m) (s.ea m + 2) } }) ∧
    (∀ reg m, exec (.les reg m) s = .next { s with
      gpr := s.gpr.set reg (s.readWord (s.eaSeg m) (s.ea m))
      seg := { s.seg with es := s.readWord (s.eaSeg m) (s.ea m + 2) } })

/-- LAHF and SAHF: AH takes SF ZF 0 AF 0 PF 1 CF; SF ZF AF PF CF take AH's bits 7 6 4 2 0 (40 R113, R114). -/
def Obligations.LahfSahfMoveFlags : Prop :=
  ∀ s : State,
    exec .lahf s = .next { s with
      gpr := s.gpr.setByte .spAh
        (BitVec.ofBool s.flags.sf ++ BitVec.ofBool s.flags.zf ++ 0#1 ++ BitVec.ofBool s.flags.af ++ 0#1 ++
          BitVec.ofBool s.flags.pf ++ 1#1 ++ BitVec.ofBool s.flags.cf) } ∧
    exec .sahf s = .next { s with flags := { s.flags with
      sf := (s.gpr.getByte .spAh).getLsbD 7, zf := (s.gpr.getByte .spAh).getLsbD 6, af := (s.gpr.getByte .spAh).getLsbD 4,
      pf := (s.gpr.getByte .spAh).getLsbD 2, cf := (s.gpr.getByte .spAh).getLsbD 0 } }

/-! ### Arithmetic -/

/-- ADD and ADC in their three forms, the immediate byte with s:w = 11 sign-extended (41_arithmetic.md R117,
R120, R121; 30 R68, R71 to R73). -/
def Obligations.AddAdcSumAndFlags : Prop :=
  ImmediateValues ∧ ∀ s : State, s.mem.wf = true →
    (∀ d w reg rm, ∃ t, exec (.addRmReg d w reg rm) s = .next t ∧
      s.Added t w (s.rmrDst d reg rm) (s.read w (s.rmrSrc d reg rm)) false) ∧
    (∀ rm imm, ∃ t, exec (.addRmImm rm imm) s = .next t ∧ s.Added t imm.width (s.place rm) (SwImm.value imm) false) ∧
    (∀ imm, ∃ t, exec (.addAccImm imm) s = .next t ∧ s.Added t imm.width (.reg .axAl) (Imm.value imm) false) ∧
    (∀ d w reg rm, ∃ t, exec (.adcRmReg d w reg rm) s = .next t ∧
      s.Added t w (s.rmrDst d reg rm) (s.read w (s.rmrSrc d reg rm)) s.flags.cf) ∧
    (∀ rm imm, ∃ t, exec (.adcRmImm rm imm) s = .next t ∧
      s.Added t imm.width (s.place rm) (SwImm.value imm) s.flags.cf) ∧
    (∀ imm, ∃ t, exec (.adcAccImm imm) s = .next t ∧ s.Added t imm.width (.reg .axAl) (Imm.value imm) s.flags.cf)

/-- SUB and SBB in their three forms, the immediate byte with s:w = 11 sign-extended (41 R117, R125, R126; 30 R68, R71 to R73). -/
def Obligations.SubSbbDifferenceAndFlags : Prop :=
  ImmediateValues ∧ ∀ s : State, s.mem.wf = true →
    (∀ d w reg rm, ∃ t, exec (.subRmReg d w reg rm) s = .next t ∧
      s.Subtracted t w (s.rmrDst d reg rm) (s.read w (s.rmrSrc d reg rm)) false) ∧
    (∀ rm imm, ∃ t, exec (.subRmImm rm imm) s = .next t ∧
      s.Subtracted t imm.width (s.place rm) (SwImm.value imm) false) ∧
    (∀ imm, ∃ t, exec (.subAccImm imm) s = .next t ∧ s.Subtracted t imm.width (.reg .axAl) (Imm.value imm) false) ∧
    (∀ d w reg rm, ∃ t, exec (.sbbRmReg d w reg rm) s = .next t ∧
      s.Subtracted t w (s.rmrDst d reg rm) (s.read w (s.rmrSrc d reg rm)) s.flags.cf) ∧
    (∀ rm imm, ∃ t, exec (.sbbRmImm rm imm) s = .next t ∧
      s.Subtracted t imm.width (s.place rm) (SwImm.value imm) s.flags.cf) ∧
    (∀ imm, ∃ t, exec (.sbbAccImm imm) s = .next t ∧
      s.Subtracted t imm.width (.reg .axAl) (Imm.value imm) s.flags.cf)

/-- CMP in its three forms, the immediate byte with s:w = 11 sign-extended, writes flags only; afterwards ZF says equal, CF
says below, SF different from OF says less (41 R129; 44 R184; 30 R68, R71 to R73). -/
def Obligations.CmpWritesFlagsOnly : Prop :=
  ImmediateValues ∧ ∀ s : State,
    (∀ d w reg rm, ∃ t, exec (.cmpRmReg d w reg rm) s = .next t ∧
      s.Compared t (s.read w (s.rmrDst d reg rm)) (s.read w (s.rmrSrc d reg rm)) ∧
      (t.flags.zf = true ↔ s.read w (s.rmrDst d reg rm) = s.read w (s.rmrSrc d reg rm)) ∧
      (t.flags.cf = true ↔ (s.read w (s.rmrDst d reg rm)).toNat < (s.read w (s.rmrSrc d reg rm)).toNat) ∧
      (t.flags.sf ≠ t.flags.of ↔ (s.read w (s.rmrDst d reg rm)).toInt < (s.read w (s.rmrSrc d reg rm)).toInt)) ∧
    (∀ rm imm, ∃ t, exec (.cmpRmImm rm imm) s = .next t ∧
      s.Compared t (s.read imm.width (s.place rm)) (SwImm.value imm)) ∧
    (∀ imm, ∃ t, exec (.cmpAccImm imm) s = .next t ∧
      s.Compared t (s.read imm.width (.reg .axAl)) (Imm.value imm))

/-- INC and DEC: the operand plus or minus 1; CF, DF, IF, TF are not written. NEG: two's complement; CF = operand not 0, OF =
operand the most negative number (41 R122, R127, R128). -/
def Obligations.IncDecNegResultAndFlags : Prop :=
  ∀ s : State, s.mem.wf = true → ∀ (i : Instr) (w : Width) (p : Place),
    (((∃ rm, i = .incRm w rm ∧ p = s.place rm) ∨ (∃ reg, i = .incReg reg ∧ w = .word ∧ p = .reg reg)) →
      ∃ t, exec i s = .next t ∧ s.Wrote t w p (s.read w p + 1) ∧ t.freeCount = s.freeCount ∧
        t.flags = { s.flags with
          of := decide ((s.read w p + 1).toInt ≠ (s.read w p).toInt + 1)
          sf := decide ((s.read w p + 1).toInt < 0), zf := decide (s.read w p + 1 = 0)
          af := decide ((s.read w p).toNat % 16 = 15), pf := parity8 (s.read w p + 1) }) ∧
    (((∃ rm, i = .decRm w rm ∧ p = s.place rm) ∨ (∃ reg, i = .decReg reg ∧ w = .word ∧ p = .reg reg)) →
      ∃ t, exec i s = .next t ∧ s.Wrote t w p (s.read w p - 1) ∧ t.freeCount = s.freeCount ∧
        t.flags = { s.flags with
          of := decide ((s.read w p - 1).toInt ≠ (s.read w p).toInt - 1)
          sf := decide ((s.read w p - 1).toInt < 0), zf := decide (s.read w p - 1 = 0)
          af := decide ((s.read w p).toNat % 16 = 0), pf := parity8 (s.read w p - 1) }) ∧
    ((∃ rm, i = .neg w rm ∧ p = s.place rm) →
      ∃ t, exec i s = .next t ∧ s.Wrote t w p (-s.read w p) ∧ t.freeCount = s.freeCount ∧
        t.flags = { s.flags with
          of := decide (s.read w p = BitVec.intMin w.bits), sf := decide ((-s.read w p).toInt < 0)
          zf := decide (s.read w p = 0), af := decide ((s.read w p).toNat % 16 ≠ 0), pf := parity8 (-s.read w p)
          cf := decide (s.read w p ≠ 0) })

/-- AAA and AAS: 6 and 1 added to or taken from AL and AH separately when the low digit of AL is above 9 or AF is set; the
upper half of AL cleared; AF and CF written; OF SF ZF PF left open; nothing else changes (41 R123, R130). -/
def Obligations.AsciiAdjustResults : Prop :=
  ∀ s : State,
    let al := s.gpr.getByte .axAl
    let ah := s.gpr.getByte .spAh
    let adj := decide (9 < al.toNat % 16) || s.flags.af
    (∃ t, exec .aaa s = .next t ∧
      t = { s with gpr := { s.gpr with ax := t.gpr.ax }, flags := t.flags, freeCount := t.freeCount } ∧
      (t.gpr.getByte .axAl).toNat = (if adj then al.toNat + 6 else al.toNat) % 16 ∧
      t.gpr.getByte .spAh = (if adj then ah + 1 else ah) ∧
      t.flags = { t.flags with df := s.flags.df, ifl := s.flags.ifl, tf := s.flags.tf, af := adj, cf := adj }) ∧
    (∃ t, exec .aas s = .next t ∧
      t = { s with gpr := { s.gpr with ax := t.gpr.ax }, flags := t.flags, freeCount := t.freeCount } ∧
      (t.gpr.getByte .axAl).toNat = (if adj then al.toNat + 250 else al.toNat) % 16 ∧
      t.gpr.getByte .spAh = (if adj then ah - 1 else ah) ∧
      t.flags = { t.flags with df := s.flags.df, ifl := s.flags.ifl, tf := s.flags.tf, af := adj, cf := adj })

/-- DAA and DAS: the two corrections, decided by the old AL, AF and CF; OF left open; AL and flags alone change
(41 R124, R131). -/
def Obligations.DecimalAdjustResults : Prop :=
  ∀ s : State,
    let al := s.gpr.getByte .axAl
    let low := decide (9 < al.toNat % 16) || s.flags.af
    let high := decide (0x99 < al.toNat) || s.flags.cf
    (∃ t, exec .daa s = .next t ∧
      t = { s with gpr := s.gpr.setByte .axAl (t.gpr.getByte .axAl), flags := t.flags, freeCount := t.freeCount } ∧
      (t.gpr.getByte .axAl).toNat = (al.toNat + (if low then 6 else 0) + (if high then 0x60 else 0)) % 256 ∧
      t.flags = { s.flags with
        of := t.flags.of, sf := (t.gpr.getByte .axAl).msb, zf := decide (t.gpr.getByte .axAl = 0), af := low
        pf := parity8 (t.gpr.getByte .axAl), cf := high }) ∧
    (∃ t, exec .das s = .next t ∧
      t = { s with gpr := s.gpr.setByte .axAl (t.gpr.getByte .axAl), flags := t.flags, freeCount := t.freeCount } ∧
      (t.gpr.getByte .axAl).toNat = (al.toNat + (if low then 250 else 0) + (if high then 160 else 0)) % 256 ∧
      t.flags = { s.flags with
        of := t.flags.of, sf := (t.gpr.getByte .axAl).msb, zf := decide (t.gpr.getByte .axAl = 0), af := low
        pf := parity8 (t.gpr.getByte .axAl), cf := high || (low && decide (al.toNat < 6)) })

/-- The purpose of DAA: after ADC of two valid packed BCD bytes (a and c the tens, b and d the units), DAA leaves the packed
sum in AL and the carry out of the hundreds in CF (41 R119, R124). -/
def Obligations.DaaCorrectsPackedSums : Prop :=
  ∀ (s : State) (a b c d : Nat), a < 10 → b < 10 → c < 10 → d < 10 →
    s.gpr.getByte .axAl = BitVec.ofNat 8 (16 * a + b) →
    ∃ t u, exec (.adcAccImm (.byte (BitVec.ofNat 8 (16 * c + d)))) s = .next t ∧ exec .daa t = .next u ∧
      let sum := 10 * a + b + (10 * c + d) + s.flags.cf.toNat
      (u.gpr.getByte .axAl).toNat = 16 * (sum / 10 % 10) + sum % 10 ∧ u.flags.cf = decide (100 ≤ sum)

/-- MUL and IMUL: AX or DX:AX takes the exact product; CF = OF says that the product needs more than the lower half; DF, IF,
TF as before, SF ZF AF PF left open; nothing else changes (41 R118, R132, R133). -/
def Obligations.MulImulExactProduct : Prop :=
  ∀ (s : State) (rm : RM),
    (∃ t, exec (.mul .byte rm) s = .next t ∧ let p := (s.gpr.getByte .axAl).toNat * (s.read .byte (s.place rm)).toNat
      t = { s with gpr := { s.gpr with ax := t.gpr.ax }, flags := t.flags, freeCount := t.freeCount } ∧
      t.gpr.ax.toNat = p ∧ t.flags = { t.flags with
        of := decide (0xFF < p), df := s.flags.df, ifl := s.flags.ifl, tf := s.flags.tf, cf := decide (0xFF < p) }) ∧
    (∃ t, exec (.mul .word rm) s = .next t ∧ let p := s.gpr.ax.toNat * (s.read .word (s.place rm)).toNat
      t = { s with gpr := { s.gpr with ax := t.gpr.ax, dx := t.gpr.dx }, flags := t.flags, freeCount := t.freeCount } ∧
      t.gpr.dx.toNat * 2 ^ 16 + t.gpr.ax.toNat = p ∧ t.flags = { t.flags with
        of := decide (0xFFFF < p), df := s.flags.df, ifl := s.flags.ifl, tf := s.flags.tf, cf := decide (0xFFFF < p) }) ∧
    (∃ t, exec (.imul .byte rm) s = .next t ∧ let p := (s.gpr.getByte .axAl).toInt * (s.read .byte (s.place rm)).toInt
      t = { s with gpr := { s.gpr with ax := t.gpr.ax }, flags := t.flags, freeCount := t.freeCount } ∧
      t.gpr.ax.toInt = p ∧ t.flags = { t.flags with
        of := decide (p < -128 ∨ 127 < p), df := s.flags.df, ifl := s.flags.ifl, tf := s.flags.tf
        cf := decide (p < -128 ∨ 127 < p) }) ∧
    (∃ t, exec (.imul .word rm) s = .next t ∧ let p := s.gpr.ax.toInt * (s.read .word (s.place rm)).toInt
      t = { s with gpr := { s.gpr with ax := t.gpr.ax, dx := t.gpr.dx }, flags := t.flags, freeCount := t.freeCount } ∧
      t.gpr.dx.toInt * 2 ^ 16 + t.gpr.ax.toNat = p ∧ t.flags = { t.flags with
        of := decide (p < -32768 ∨ 32767 < p), df := s.flags.df, ifl := s.flags.ifl, tf := s.flags.tf
        cf := decide (p < -32768 ∨ 32767 < p) })

/-- DIV and IDIV where the quotient fits (IDIV's from -127, or -32767, on): quotient and remainder are exact, IDIV
truncates toward zero; the six status flags are left open, DF, IF, TF as before; nothing else changes (41 R118, R135,
R136). -/
def Obligations.DivideGivesQuotient : Prop :=
  idivMin 8 = -127 ∧ idivMin 16 = -32767 ∧ ∀ (s : State) (rm : RM),
    (divideErrorDue (.div .byte rm) s = false → ∃ t, exec (.div .byte rm) s = .next t ∧
      let v := (s.read .byte (s.place rm)).toNat
      t = { s with gpr := { s.gpr with ax := t.gpr.ax }, flags := t.flags, freeCount := t.freeCount } ∧
      (t.gpr.getByte .axAl).toNat = s.gpr.ax.toNat / v ∧ (t.gpr.getByte .spAh).toNat = s.gpr.ax.toNat % v ∧
      t.flags = { t.flags with df := s.flags.df, ifl := s.flags.ifl, tf := s.flags.tf }) ∧
    (divideErrorDue (.div .word rm) s = false → ∃ t, exec (.div .word rm) s = .next t ∧
      let v := (s.read .word (s.place rm)).toNat
      t = { s with gpr := { s.gpr with ax := t.gpr.ax, dx := t.gpr.dx }, flags := t.flags, freeCount := t.freeCount } ∧
      t.gpr.ax.toNat = (s.gpr.dx.toNat * 2 ^ 16 + s.gpr.ax.toNat) / v ∧
      t.gpr.dx.toNat = (s.gpr.dx.toNat * 2 ^ 16 + s.gpr.ax.toNat) % v ∧
      t.flags = { t.flags with df := s.flags.df, ifl := s.flags.ifl, tf := s.flags.tf }) ∧
    (divideErrorDue (.idiv .byte rm) s = false → ∃ t, exec (.idiv .byte rm) s = .next t ∧
      let v := (s.read .byte (s.place rm)).toInt
      t = { s with gpr := { s.gpr with ax := t.gpr.ax }, flags := t.flags, freeCount := t.freeCount } ∧
      (t.gpr.getByte .axAl).toInt = s.gpr.ax.toInt.tdiv v ∧ (t.gpr.getByte .spAh).toInt = s.gpr.ax.toInt.tmod v ∧
      t.flags = { t.flags with df := s.flags.df, ifl := s.flags.ifl, tf := s.flags.tf }) ∧
    (divideErrorDue (.idiv .word rm) s = false → ∃ t, exec (.idiv .word rm) s = .next t ∧
      let v := (s.read .word (s.place rm)).toInt
      t = { s with gpr := { s.gpr with ax := t.gpr.ax, dx := t.gpr.dx }, flags := t.flags, freeCount := t.freeCount } ∧
      t.gpr.ax.toInt = (s.gpr.dx.toInt * 2 ^ 16 + s.gpr.ax.toNat).tdiv v ∧
      t.gpr.dx.toInt = (s.gpr.dx.toInt * 2 ^ 16 + s.gpr.ax.toNat).tmod v ∧
      t.flags = { t.flags with df := s.flags.df, ifl := s.flags.ifl, tf := s.flags.tf })

/-- The divide error: with divisor 0 or a quotient that does not fit (IDIV's below -127, or -32767, too), DIV and IDIV
leave AX, for a word DX, and the six status flags open and take interrupt 0 with the offset of the next instruction
saved, whatever IF and TF are (60 R231, R233; 41 R118). -/
def Obligations.DivideErrorTakesInterrupt0 : Prop :=
  idivMin 8 = -127 ∧ idivMin 16 = -32767 ∧ ∀ (s : State) (i : Instr), s.mem.wf = true →
    ((∃ w rm, i = .div w rm) ∨ ∃ w rm, i = .idiv w rm) →
    divideErrorDue i s = true →
    ∃ t u : State, exec i s = .next t ∧ u.Interrupted t 0 s.ip ∧
      u = { s with
        gpr := { s.gpr with ax := u.gpr.ax, dx := u.gpr.dx }, flags := u.flags, freeCount := u.freeCount } ∧
      u.flags = { u.flags with df := s.flags.df, ifl := s.flags.ifl, tf := s.flags.tf } ∧
      ((∀ rm, i ≠ .div .word rm ∧ i ≠ .idiv .word rm) → u.gpr.dx = s.gpr.dx)

/-- AAM and AAD with any base (0x0A in every encoding): AAM splits AL into quotient and remainder; AAD joins AH and AL modulo
256 and clears AH; SF ZF PF from AL, OF AF CF left open; nothing else changes (41 R134, R137). AAM with base 0 takes the divide
error with AX and the six status flags left open, which is the model's reading (log 17). -/
def Obligations.AamAadResults : Prop :=
  ∀ (s : State) (base : Byte),
    (base ≠ 0 → ∃ t, exec (.aam base) s = .next t ∧
      t = { s with gpr := { s.gpr with ax := t.gpr.ax }, flags := t.flags, freeCount := t.freeCount } ∧
      (t.gpr.getByte .spAh).toNat = (s.gpr.getByte .axAl).toNat / base.toNat ∧
      (t.gpr.getByte .axAl).toNat = (s.gpr.getByte .axAl).toNat % base.toNat ∧
      t.flags = { t.flags with
        df := s.flags.df, ifl := s.flags.ifl, tf := s.flags.tf, sf := (t.gpr.getByte .axAl).msb
        zf := decide (t.gpr.getByte .axAl = 0), pf := parity8 (t.gpr.getByte .axAl) }) ∧
    (∃ t, exec (.aad base) s = .next t ∧
      t = { s with gpr := { s.gpr with ax := t.gpr.ax }, flags := t.flags, freeCount := t.freeCount } ∧
      (t.gpr.getByte .spAh) = 0 ∧
      (t.gpr.getByte .axAl).toNat =
        ((s.gpr.getByte .spAh).toNat * base.toNat + (s.gpr.getByte .axAl).toNat) % 256 ∧
      t.flags = { t.flags with
        df := s.flags.df, ifl := s.flags.ifl, tf := s.flags.tf, sf := (t.gpr.getByte .axAl).msb
        zf := decide (t.gpr.getByte .axAl = 0), pf := parity8 (t.gpr.getByte .axAl) }) ∧
    (s.mem.wf = true → ∃ t u : State, exec (.aam 0) s = .next t ∧ u.Interrupted t 0 s.ip ∧
      u = { s with gpr := { s.gpr with ax := u.gpr.ax }, flags := u.flags, freeCount := u.freeCount } ∧
      u.flags = { u.flags with df := s.flags.df, ifl := s.flags.ifl, tf := s.flags.tf })

/-- CBW and CWD: AX is the sign extension of AL, DX:AX that of AX; nothing else changes (41 R138, R139). -/
def Obligations.CbwCwdSignExtend : Prop :=
  ∀ s : State,
    (∃ t, exec .cbw s = .next t ∧ t = { s with gpr := { s.gpr with ax := t.gpr.ax } } ∧
      t.gpr.ax.toInt = (s.gpr.getByte .axAl).toInt) ∧
    (∃ t, exec .cwd s = .next t ∧ t = { s with gpr := { s.gpr with dx := t.gpr.dx } } ∧
      t.gpr.dx.toInt * 2 ^ 16 + t.gpr.ax.toNat = s.gpr.ax.toInt)

/-! ### Logic, shifts, rotates -/

/-- AND, OR, XOR in their three forms (42_logic.md R141, R150, R152, R153). -/
def Obligations.AndOrXorResultAndFlags : Prop :=
  ∀ s : State, s.mem.wf = true →
    (∀ d w reg rm, let p := s.rmrDst d reg rm; let b := s.read w (s.rmrSrc d reg rm)
      (∃ t, exec (.andRmReg d w reg rm) s = .next t ∧ s.Combined t w p (s.read w p &&& b)) ∧
      (∃ t, exec (.orRmReg d w reg rm) s = .next t ∧ s.Combined t w p (s.read w p ||| b)) ∧
      (∃ t, exec (.xorRmReg d w reg rm) s = .next t ∧ s.Combined t w p (s.read w p ^^^ b))) ∧
    (∀ rm imm, let p := s.place rm; let b := Imm.value imm
      (∃ t, exec (.andRmImm rm imm) s = .next t ∧ s.Combined t imm.width p (s.read imm.width p &&& b)) ∧
      (∃ t, exec (.orRmImm rm imm) s = .next t ∧ s.Combined t imm.width p (s.read imm.width p ||| b)) ∧
      (∃ t, exec (.xorRmImm rm imm) s = .next t ∧ s.Combined t imm.width p (s.read imm.width p ^^^ b))) ∧
    (∀ imm, let p := Place.reg .axAl; let b := Imm.value imm
      (∃ t, exec (.andAccImm imm) s = .next t ∧ s.Combined t imm.width p (s.read imm.width p &&& b)) ∧
      (∃ t, exec (.orAccImm imm) s = .next t ∧ s.Combined t imm.width p (s.read imm.width p ||| b)) ∧
      (∃ t, exec (.xorAccImm imm) s = .next t ∧ s.Combined t imm.width p (s.read imm.width p ^^^ b)))

/-- TEST in its three forms writes flags only; NOT inverts every bit and writes no flag (42 R141, R142, R151). -/
def Obligations.TestNotEffects : Prop :=
  ∀ s : State,
    (∀ w reg rm, ∃ t, exec (.testRmReg w reg rm) s = .next t ∧
      s.Tested t (s.read w (s.place rm) &&& s.read w (.reg reg))) ∧
    (∀ rm imm, ∃ t, exec (.testRmImm rm imm) s = .next t ∧
      s.Tested t (s.read imm.width (s.place rm) &&& Imm.value imm)) ∧
    (∀ imm, ∃ t, exec (.testAccImm imm) s = .next t ∧
      s.Tested t (s.read imm.width (.reg .axAl) &&& Imm.value imm)) ∧
    (s.mem.wf = true → ∀ w rm, ∃ t, exec (.not w rm) s = .next t ∧
      s.WroteOnly t w (s.place rm) (~~~ s.read w (s.place rm)))

/-- The shifts by 1 or by CL, all eight bits of CL counting: the value, the last bit shifted out in CF, OF for count 1; with
count 0 nothing changes (42 R140, R143 to R145), and that the unchanged operand is then not written back, so that no byte of it
is remembered inside the prefetch window, is the model's choice among the two outcomes R140 admits (log 22). -/
def Obligations.ShiftsByAnyCount : Prop :=
  ∀ s : State, s.mem.wf = true → ∀ (v : CountSel) (w : Width) (rm : RM),
    let n := w.bits
    let k := match v with
      | .one => 1
      | .cl => (s.gpr.getByte .cxCl).toNat
    let x := s.read w (s.place rm)
    (k = 0 → exec (.shl v w rm) s = .next s ∧ exec (.shr v w rm) s = .next s ∧ exec (.sar v w rm) s = .next s) ∧
    (k ≠ 0 →
      (∃ t, exec (.shl v w rm) s = .next t ∧
        s.Shifted t w (s.place rm) (x <<< k) (decide (k ≤ n) && x.getLsbD (n - k))
          (if k = 1 then some ((x <<< 1).msb ^^ x.msb) else none)) ∧
      (∃ t, exec (.shr v w rm) s = .next t ∧
        s.Shifted t w (s.place rm) (x >>> k) (x.getLsbD (k - 1)) (if k = 1 then some x.msb else none)) ∧
      (∃ t, exec (.sar v w rm) s = .next t ∧
        s.Shifted t w (s.place rm) (x.sshiftRight k) ((x.sshiftRight (k - 1)).getLsbD 0)
          (if k = 1 then some false else none)))

/-- The rotates by 1 or by CL: ROL and ROR turn the n bits, RCL and RCR the n + 1 bits CF:operand; CF is the last bit that
went round, OF is given for count 1; no other flag is written; with count 0 nothing changes (42 R140, R146 to R149),
and that the unchanged operand is then not written back, so that no byte of it is remembered inside the prefetch window, is the
model's choice among the two outcomes R140 admits (log 22). -/
def Obligations.RotatesByAnyCount : Prop :=
  ∀ s : State, s.mem.wf = true → ∀ (v : CountSel) (w : Width) (rm : RM),
    let n := w.bits
    let k := match v with
      | .one => 1
      | .cl => (s.gpr.getByte .cxCl).toNat
    let x := s.read w (s.place rm)
    let y : BitVec (1 + n) := BitVec.ofBool s.flags.cf ++ x
    let l := y.rotateLeft k
    let r := y.rotateRight k
    (k = 0 → exec (.rol v w rm) s = .next s ∧ exec (.ror v w rm) s = .next s ∧ exec (.rcl v w rm) s = .next s ∧
      exec (.rcr v w rm) s = .next s) ∧
    (k ≠ 0 →
      (∃ t, exec (.rol v w rm) s = .next t ∧
        s.Rotated t w (s.place rm) (x.rotateLeft k) ((x.rotateLeft k).getLsbD 0)
          (if k = 1 then some ((x.rotateLeft 1).msb ^^ x.msb) else none)) ∧
      (∃ t, exec (.ror v w rm) s = .next t ∧
        s.Rotated t w (s.place rm) (x.rotateRight k) (x.rotateRight k).msb
          (if k = 1 then some ((x.rotateRight 1).getLsbD (n - 1) ^^ (x.rotateRight 1).getLsbD (n - 2)) else none)) ∧
      (∃ t, exec (.rcl v w rm) s = .next t ∧
        s.Rotated t w (s.place rm) (l.setWidth n) l.msb (if k = 1 then some (l.getLsbD (n - 1) ^^ l.msb) else none)) ∧
      (∃ t, exec (.rcr v w rm) s = .next t ∧
        s.Rotated t w (s.place rm) (r.setWidth n) r.msb
          (if k = 1 then some (r.getLsbD (n - 1) ^^ r.getLsbD (n - 2)) else none)))

/-! ### Strings -/

/-- One element of each string instruction, without REP: the source is at SI in DS or the override segment, the destination
always at ES:DI, SI and DI move by the element size, up with DF = 0 and down with DF = 1; nothing else changes
(43_string.md R160, R162 to R166). -/
def Obligations.StringElements : Prop :=
  ∀ (s : State) (w : Width), s.mem.wf = true → s.pfx.rep = none →
    let k := BitVec.ofNat 16 (w.bits / 8)
    let step : Word → Word := fun x => if s.flags.df then x - k else x + k
    let src := Place.mem (s.dataSeg .ds) s.gpr.si
    let dst := Place.mem s.seg.es s.gpr.di
    (∃ t, exec (.movs w) s = .next t ∧ t.read w dst = s.read w src ∧ s.mem.SameOff t.mem (dst.bytes w) ∧
      s.Remembers t (dst.bytes w) ∧
      t = { s with
        gpr := { s.gpr with si := step s.gpr.si, di := step s.gpr.di }, mem := t.mem, staleCode := t.staleCode }) ∧
    (∃ t, exec (.cmps w) s = .next t ∧
      s.flags.AfterSub t.flags (s.read w src) (s.read w dst)
        (BitVec.ofInt w.bits ((s.read w src).toInt - (s.read w dst).toInt)) false ∧
      t = { s with gpr := { s.gpr with si := step s.gpr.si, di := step s.gpr.di }, flags := t.flags }) ∧
    (∃ t, exec (.scas w) s = .next t ∧
      s.flags.AfterSub t.flags (s.read w (.reg .axAl)) (s.read w dst)
        (BitVec.ofInt w.bits ((s.read w (.reg .axAl)).toInt - (s.read w dst).toInt)) false ∧
      t = { s with gpr := { s.gpr with di := step s.gpr.di }, flags := t.flags }) ∧
    (∃ t, exec (.lods w) s = .next t ∧ t.read w (.reg .axAl) = s.read w src ∧
      (w = .byte → t.gpr.getByte .spAh = s.gpr.getByte .spAh) ∧
      t = { s with gpr := { s.gpr with ax := t.gpr.ax, si := step s.gpr.si } }) ∧
    (∃ t, exec (.stos w) s = .next t ∧ t.read w dst = s.read w (.reg .axAl) ∧ s.mem.SameOff t.mem (dst.bytes w) ∧
      s.Remembers t (dst.bytes w) ∧
      t = { s with gpr := { s.gpr with di := step s.gpr.di }, mem := t.mem, staleCode := t.staleCode })

/-- The loop of REP: with CX = 0 nothing happens; otherwise one element is done as without REP, CX is lowered by 1, and the
instruction is over when CX is 0 or, for CMPS and SCAS, ZF differs from z; else, with no interrupt due between the elements and
no RESET at the boundary, before or in the next element, it goes on, past that boundary, as the same repeated instruction
(43 R161). One record of the host for each boundary between elements, the places of RESET in it, and that other agents' writes
land there or are held by LOCK, is the model's choice (logs 6, 7, 13). -/
def Obligations.RepUnrolls : Prop :=
  ∀ (s : State) (i : Instr) (z : Bool), i.isStringPrimitive = true → s.pfx.rep = some z →
    (s.gpr.cx = 0 → exec i s = .next s) ∧
    (s.gpr.cx ≠ 0 → ∃ e, exec i { s with pfx := { s.pfx with rep := none } } = .next e ∧
      let t : State := { e with pfx := s.pfx, gpr := { e.gpr with cx := s.gpr.cx - 1 } }
      let done : Prop := t.gpr.cx = 0 ∨ (((∃ w, i = .cmps w) ∨ (∃ w, i = .scas w)) ∧ t.flags.zf ≠ z)
      (done → exec i s = .next t) ∧
      (¬ done → ¬ s.Due → s.input.reset ≠ .atBoundary → t.pastBoundary.Runs → exec i s = exec i t.pastBoundary) ∧
      (s.Quiet → t.pastBoundary = t))

/-- What stops a repetition between two elements: an NMI, INTR with IF = 1, TF = 1 at the start, or RESET. After one element,
CX lowered by 1, the instruction stops with IP at its first prefix byte. The boundary of that step then takes the interrupt: NMI
before INTR, the trap last, each with that offset saved (the trap on top of another interrupt, with its handler's), the host's
record used up. With two or more prefix bytes an interrupted run is refused (43 R161 and its corner cases 4 and 5; 60 R234 to
R236, R238). RESET at the boundary, or before or in the next element, stops the instruction there; the element it aborts leaves
the bytes it stores to open (70 R260). That RESET at the boundary goes before the refusal of corner case 5, and that just the
bytes of `storesOf` are open, is the model's choice (log 7), and so are the host's records, the places of RESET in them, and what
other agents' writes in them do at the boundary (logs 6, 7, 13). -/
def Obligations.RepStopsBetweenElements : Prop :=
  ∀ (s : State) (i : Instr) (z : Bool), i.isStringPrimitive = true → s.pfx.rep = some z →
    ∀ e, exec i { s with pfx := { s.pfx with rep := none } } = .next e →
      s.gpr.cx ≠ 0 → s.gpr.cx ≠ 1 → ((∃ w, i = .cmps w) ∨ (∃ w, i = .scas w) → e.flags.zf = z) →
      let t : State := { e with pfx := s.pfx, gpr := { e.gpr with cx := s.gpr.cx - 1 } }
      let u : State := { t with ip := s.startIp }
      (s.input.reset = .atBoundary → exec i s = .next u) ∧
      (s.input.reset ≠ .atBoundary → s.Due →
        (s.pfx.count < 2 → exec i s = .next u) ∧ (2 ≤ s.pfx.count → exec i s = .refused .repInterruptedManyPrefixes)) ∧
      (s.input.reset = .inactive → s.pfx.count < 2 → s.intInhibit = false → s.justReset = false →
        let b : State := { u.ended.pastBoundary with nmiPending := false }
        ((s.nmiPending = true ∨ s.input.nmiEdge = true) →
          finishInstr (exec i s) = .next (s.trapped (b.interrupt 2 s.startIp))) ∧
        (∀ k, s.nmiPending = false → s.input.nmiEdge = false → s.flags.ifl = true → s.input.intr = some k →
          finishInstr (exec i s) = .next (s.trapped (b.interrupt k s.startIp))) ∧
        (s.nmiPending = false → s.input.nmiEdge = false → (s.flags.ifl = false ∨ s.input.intr = none) →
          s.tfAtStart = true → s.waiting = false → finishInstr (exec i s) = .next (b.interrupt 1 s.startIp))) ∧
      (s.input.reset ≠ .atBoundary → ¬ s.Due →
        let n := t.pastBoundary
        (n.input.reset = .atStart → exec i s = .next { n with ip := s.startIp }) ∧
        (n.input.reset = .inInstr → ∃ r, exec i s = .next r ∧
          n.mem.SameOff r.mem (storesOf i { n with pfx := { n.pfx with rep := none } }) ∧
          r = { n with
            ip := s.startIp, mem := r.mem, staleCode := r.staleCode, freeCount := r.freeCount
            inputs := { n.input with reset := .atStart } :: n.inputs.tail }))

/-- REP MOVS, LODS and STOS to the end, with no interrupt, no RESET and no other agent to come: CX is 0, the pointers have moved
by CX elements, no flag changed, no byte of memory outside the CX destination elements changed. REP STOS has left the
accumulator in each of them; REP MOVS, where they share no byte with the source elements, the source elements, in order; REP
LODS has the last element in the accumulator (43 R160, R161, R162, R165, R166). -/
def Obligations.RepRunsToTheEnd : Prop :=
  ∀ (s : State) (z : Bool) (w : Width), s.mem.wf = true → s.pfx.rep = some z → s.Quiet →
    let n := s.gpr.cx.toNat
    (∃ t, exec (.movs w) s = .next t ∧
      t = { s with
        gpr := { s.gpr with cx := 0, si := s.along w s.gpr.si n, di := s.along w s.gpr.di n }
        mem := t.mem, staleCode := t.staleCode } ∧
      s.mem.SameOff t.mem (s.dstArea w) ∧ s.Remembers t (s.dstArea w) ∧
      ((∀ a ∈ s.dstArea w, a ∉ s.srcArea w) → ∀ j, j < n → t.read w (s.dstAt w j) = s.read w (s.srcAt w j))) ∧
    (∃ t, exec (.lods w) s = .next t ∧
      t = { s with gpr := { s.gpr with ax := t.gpr.ax, cx := 0, si := s.along w s.gpr.si n } } ∧
      (n = 0 → t.gpr.ax = s.gpr.ax) ∧
      (n ≠ 0 → t.read w (.reg .axAl) = s.read w (s.srcAt w (n - 1))) ∧
      (w = .byte → t.gpr.getByte .spAh = s.gpr.getByte .spAh)) ∧
    (∃ t, exec (.stos w) s = .next t ∧
      t = { s with
        gpr := { s.gpr with cx := 0, di := s.along w s.gpr.di n }, mem := t.mem, staleCode := t.staleCode } ∧
      s.mem.SameOff t.mem (s.dstArea w) ∧ s.Remembers t (s.dstArea w) ∧
      ∀ j, j < n → t.read w (s.dstAt w j) = s.read w (.reg .axAl))

/-! ### Control transfer -/

/-- The four CALLs: IP of the next instruction is pushed, after CS for the intersegment forms, the operand is read before the
push, control goes to the target, nothing else changes (44 R170 to R174). -/
def Obligations.CallPushesReturn : Prop :=
  ∀ s : State, s.mem.wf = true →
    (∀ disp, ∃ t, exec (.callRel disp) s = .next t ∧ s.Called t [s.ip] s.seg.cs (s.ip + disp)) ∧
    (∀ rm, ∃ t, exec (.callRm rm) s = .next t ∧ s.Called t [s.ip] s.seg.cs (s.read .word (s.place rm))) ∧
    (∀ off sg, ∃ t, exec (.callFar off sg) s = .next t ∧ s.Called t [s.seg.cs, s.ip] sg off) ∧
    (∀ m, ∃ t, exec (.callFarMem m) s = .next t ∧
      s.Called t [s.seg.cs, s.ip] (s.readWord (s.eaSeg m) (s.ea m + 2)) (s.readWord (s.eaSeg m) (s.ea m)))

/-- The five JMPs and four RETs: only IP, CS for the intersegment forms, and for RET SP change, and the bytes fetched ahead are
discarded (44 R170, R175 to R183). -/
def Obligations.JmpRetTargets : Prop :=
  ∀ s : State,
    let sp := s.gpr.sp
    let word : Word → Word := fun off => s.readWord s.seg.ss off
    (∀ disp, exec (.jmpRel disp) s = .next { s with ip := s.ip + disp, staleCode := [] }) ∧
    (∀ disp, exec (.jmpShort disp) s = .next { s with ip := s.ip + disp.signExtend 16, staleCode := [] }) ∧
    (∀ rm, exec (.jmpRm rm) s = .next { s with ip := s.read .word (s.place rm), staleCode := [] }) ∧
    (∀ off sg, exec (.jmpFar off sg) s =
      .next { s with ip := off, seg := { s.seg with cs := sg }, staleCode := [] }) ∧
    (∀ m, exec (.jmpFarMem m) s = .next { s with
      ip := s.readWord (s.eaSeg m) (s.ea m)
      seg := { s.seg with cs := s.readWord (s.eaSeg m) (s.ea m + 2) }, staleCode := [] }) ∧
    exec .ret s = .next { s with ip := word sp, gpr := { s.gpr with sp := sp + 2 }, staleCode := [] } ∧
    (∀ d, exec (.retImm d) s =
      .next { s with ip := word sp, gpr := { s.gpr with sp := sp + 2 + d }, staleCode := [] }) ∧
    exec .retFar s = .next { s with
      ip := word sp, seg := { s.seg with cs := word (sp + 2) }, gpr := { s.gpr with sp := sp + 4 }, staleCode := [] } ∧
    (∀ d, exec (.retFarImm d) s = .next { s with
      ip := word sp, seg := { s.seg with cs := word (sp + 2) }, gpr := { s.gpr with sp := sp + 4 + d }, staleCode := [] })

/-- The sixteen conditional jumps are taken exactly when the condition holds, to IP of the next instruction plus the
sign-extended displacement; not taken, nothing changes. LOOP, LOOPZ, LOOPNZ lower CX by 1 in every case and jump while it is
not 0 and ZF agrees; JCXZ jumps when CX is 0 and changes no register; no flag is written (44 R184 to R204). -/
def Obligations.ConditionalTransfersTaken : Prop :=
  ∀ (s : State) (disp : Byte),
    let f := s.flags
    let go : State → State := fun t => { t with ip := s.ip + disp.signExtend 16, staleCode := [] }
    let jump : Bool → State := fun c => if c = true then go s else s
    let d : State := { s with gpr := { s.gpr with cx := s.gpr.cx - 1 } }
    exec (.jo disp) s = .next (jump f.of) ∧ exec (.jno disp) s = .next (jump (!f.of)) ∧
    exec (.jb disp) s = .next (jump f.cf) ∧ exec (.jnb disp) s = .next (jump (!f.cf)) ∧
    exec (.je disp) s = .next (jump f.zf) ∧ exec (.jne disp) s = .next (jump (!f.zf)) ∧
    exec (.jbe disp) s = .next (jump (f.cf || f.zf)) ∧ exec (.jnbe disp) s = .next (jump (!(f.cf || f.zf))) ∧
    exec (.js disp) s = .next (jump f.sf) ∧ exec (.jns disp) s = .next (jump (!f.sf)) ∧
    exec (.jp disp) s = .next (jump f.pf) ∧ exec (.jnp disp) s = .next (jump (!f.pf)) ∧
    exec (.jl disp) s = .next (jump (f.sf ^^ f.of)) ∧ exec (.jnl disp) s = .next (jump (!(f.sf ^^ f.of))) ∧
    exec (.jle disp) s = .next (jump ((f.sf ^^ f.of) || f.zf)) ∧
    exec (.jnle disp) s = .next (jump (!((f.sf ^^ f.of) || f.zf))) ∧
    exec (.loop disp) s = .next (if s.gpr.cx = 1 then d else go d) ∧
    exec (.loopz disp) s = .next (if s.gpr.cx ≠ 1 ∧ s.flags.zf = true then go d else d) ∧
    exec (.loopnz disp) s = .next (if s.gpr.cx ≠ 1 ∧ s.flags.zf = false then go d else d) ∧
    exec (.jcxz disp) s = .next (if s.gpr.cx = 0 then go s else s)

/-- INT, INT 3 and INTO take their interrupt with the offset of the next instruction saved, whatever IF is; INTO with OF = 0
changes nothing (44 R205 to R207; 60 R233). -/
def Obligations.SoftwareInterrupts : Prop :=
  ∀ s : State, s.mem.wf = true →
    (∀ k, ∃ t, exec (.int k) s = .next t ∧ s.Interrupted t k s.ip) ∧
    (∃ t, exec .int3 s = .next t ∧ s.Interrupted t 3 s.ip) ∧
    (s.flags.of = true → ∃ t, exec .into s = .next t ∧ s.Interrupted t 4 s.ip) ∧
    (s.flags.of = false → exec .into s = .next s)

/-- IRET pops IP, CS and FLAGS in this order, the X bits of the popped word discarded, and nothing else changes; so it is the
exact inverse of the three pushes of the interrupt sequence (44 R208; 60 R240). -/
def Obligations.IretUndoesInterrupt : Prop :=
  ∀ s : State,
    let word : Word → Word := fun off => s.readWord s.seg.ss off
    let v := word (s.gpr.sp + 4)
    exec .iret s = .next { s with
      ip := word s.gpr.sp
      seg := { s.seg with cs := word (s.gpr.sp + 2) }
      gpr := { s.gpr with sp := s.gpr.sp + 6 }
      staleCode := []
      flags :=
        { of := v.getLsbD 11, df := v.getLsbD 10, ifl := v.getLsbD 9, tf := v.getLsbD 8, sf := v.getLsbD 7,
          zf := v.getLsbD 6, af := v.getLsbD 4, pf := v.getLsbD 2, cf := v.getLsbD 0 } } ∧
    ∀ (k : Byte) (ret : Word), s.mem.wf = true → ∃ t, exec .iret (s.interrupt k ret) = .next t ∧
      t.gpr = s.gpr ∧ t.seg = s.seg ∧ t.flags = s.flags ∧ t.ip = ret ∧ t.mem = (s.interrupt k ret).mem

/-! ### Processor control -/

/-- The seven flag instructions write their flag and nothing else, STI also inhibits the next boundary; HLT sets the halt and
nothing else; WAIT is over when TEST is active and otherwise goes back to its first byte; ESC changes nothing; the three
prefixes are recorded and nothing else changes (45_processor_control.md R210 to R221; 43 R161). With TEST never active and
nothing else to come WAIT never ends: its step leads to a state whose step leads to itself (45 R218; 70 R263). The fields
`waiting`, `justReset`, `testLevel` and the list of host records are the model's choice (logs 6, 11, 16). -/
def Obligations.ProcessorControlEffects : Prop :=
  ∀ s : State,
    exec .clc s = .next { s with flags := { s.flags with cf := false } } ∧
    exec .cmc s = .next { s with flags := { s.flags with cf := !s.flags.cf } } ∧
    exec .stc s = .next { s with flags := { s.flags with cf := true } } ∧
    exec .cld s = .next { s with flags := { s.flags with df := false } } ∧
    exec .std s = .next { s with flags := { s.flags with df := true } } ∧
    exec .cli s = .next { s with flags := { s.flags with ifl := false } } ∧
    exec .sti s = .next { s with flags := { s.flags with ifl := true }, intInhibit := true } ∧
    exec .hlt s = .next { s with halted := true } ∧
    (s.input.test = true → exec .wait s = .next s) ∧
    (s.input.test = false → exec .wait s = .next { s with ip := s.startIp, waiting := true }) ∧
    (∀ x0 x1 rm, exec (.esc x0 x1 rm) s = .next s) ∧
    (∀ z, exec (.rep z) s = .next { s with pfx := { s.pfx with rep := some z, count := s.pfx.count + 1 } }) ∧
    exec .lock s = .next { s with pfx := { s.pfx with lock := true, count := s.pfx.count + 1 } } ∧
    (∀ sr, exec (.seg sr) s = .next { s with pfx := { s.pfx with seg := some sr, count := s.pfx.count + 1 } }) ∧
    (∀ rest, decode s.codeBytes = .ok (.wait, rest) → (∀ a ∈ s.codeAddrs (6 - rest.length), a ∉ s.staleCode) →
      s.halted = false → s.nmiPending = false → s.inputs = [] → s.testLevel = false →
      let t : State := { s.begun with waiting := true }
      step s = .next t ∧ step t = .next t)

/-! ### Memory and who writes it -/

/-- Who writes memory. An instruction without REP stores only to the bytes `storesOf` names: its operand in memory, the words it
pushes, the frame of the interrupt it takes. Other agents write at the boundary, each write of the host's record in its order,
the last one to an address standing, and remembered inside the prefetch window; under LOCK they are kept off, and what they were
to write waits in the next record. Passing the boundary otherwise uses the record up and latches its NMI edge. With no other
agent in the run LOCK has no effect on anything (20 R51, R53, R54, R56, R57; 45 R220; 60 R236). That they act at boundaries, that
R54's window holds for them too and is measured from IP at the boundary, and the host's records, are the model's choice (logs 6,
13). -/
def Obligations.MemoryWriters : Prop :=
  ∀ s : State,
    (∀ (i : Instr) (t : State), s.pfx.rep = none → exec i s = .next t → s.mem.SameOff t.mem (storesOf i s)) ∧
    (let p := s.pastBoundary
      let n : State := { s with inputs := s.inputs.tail }
      p = { s with
        mem := p.mem, staleCode := p.staleCode, inputs := p.inputs, nmiPending := s.nmiPending || s.input.nmiEdge } ∧
      (s.pfx.lock = false → p.inputs = s.inputs.tail ∧ s.mem.SameOff p.mem s.agentBytes ∧ s.Remembers p s.agentBytes ∧
        (s.mem.wf = true → ∀ (before after : List Host.Cell) (a : Nat) (b : Byte),
          s.input.writes = before ++ (a, b) :: after → (∀ c ∈ after, c.1 % 2 ^ 20 ≠ a % 2 ^ 20) →
          p.mem.read (a % 2 ^ 20) = b)) ∧
      (s.pfx.lock = true → p.mem = s.mem ∧ p.staleCode = s.staleCode ∧ p.inputs.tail = n.inputs.tail ∧
        p.input = { n.input with writes := s.input.writes ++ n.input.writes })) ∧
    (s.externalAgents = false → ∀ i : Instr, i.actsAsPrefix = false →
      let locked : State → State := fun t => { t with pfx := { t.pfx with lock := true } }
      exec i (locked s) =
        match exec i { s with pfx := { s.pfx with lock := false } } with
        | .next t => .next (locked t)
        | .fault f => .fault f
        | .refused r => .refused r)
end

