-- ==== Sys2Proof/Laws/State.lean ====
section
/-! SUPPORT. One lemma per field per update of the state, each true by definition, so that no proof unfolds a record update. -/

namespace Sys2Proof.Machine

/-! ### `State.setIp` -/

@[simp] theorem State.setIp_gpr (s : State) (v : Word) : (s.setIp v).gpr = s.gpr := rfl
@[simp] theorem State.setIp_seg (s : State) (v : Word) : (s.setIp v).seg = s.seg := rfl
@[simp] theorem State.setIp_ip (s : State) (v : Word) : (s.setIp v).ip = v := rfl
@[simp] theorem State.setIp_flags (s : State) (v : Word) : (s.setIp v).flags = s.flags := rfl
@[simp] theorem State.setIp_mem (s : State) (v : Word) : (s.setIp v).mem = s.mem := rfl
@[simp] theorem State.setIp_halted (s : State) (v : Word) : (s.setIp v).halted = s.halted := rfl
@[simp] theorem State.setIp_intInhibit (s : State) (v : Word) : (s.setIp v).intInhibit = s.intInhibit := rfl
@[simp] theorem State.setIp_nmiPending (s : State) (v : Word) : (s.setIp v).nmiPending = s.nmiPending := rfl
@[simp] theorem State.setIp_tfAtStart (s : State) (v : Word) : (s.setIp v).tfAtStart = s.tfAtStart := rfl
@[simp] theorem State.setIp_waiting (s : State) (v : Word) : (s.setIp v).waiting = s.waiting := rfl
@[simp] theorem State.setIp_justReset (s : State) (v : Word) : (s.setIp v).justReset = s.justReset := rfl
@[simp] theorem State.setIp_startIp (s : State) (v : Word) : (s.setIp v).startIp = s.startIp := rfl
@[simp] theorem State.setIp_pfx (s : State) (v : Word) : (s.setIp v).pfx = s.pfx := rfl
@[simp] theorem State.setIp_staleCode (s : State) (v : Word) : (s.setIp v).staleCode = s.staleCode := rfl
@[simp] theorem State.setIp_inputs (s : State) (v : Word) : (s.setIp v).inputs = s.inputs := rfl
@[simp] theorem State.setIp_testLevel (s : State) (v : Word) : (s.setIp v).testLevel = s.testLevel := rfl
@[simp] theorem State.setIp_portIn (s : State) (v : Word) : (s.setIp v).portIn = s.portIn := rfl
@[simp] theorem State.setIp_io (s : State) (v : Word) : (s.setIp v).io = s.io := rfl
@[simp] theorem State.setIp_freeCount (s : State) (v : Word) : (s.setIp v).freeCount = s.freeCount := rfl

/-! ### `State.setFlags` -/

@[simp] theorem State.setFlags_gpr (s : State) (f : Flags) : (s.setFlags f).gpr = s.gpr := rfl
@[simp] theorem State.setFlags_seg (s : State) (f : Flags) : (s.setFlags f).seg = s.seg := rfl
@[simp] theorem State.setFlags_ip (s : State) (f : Flags) : (s.setFlags f).ip = s.ip := rfl
@[simp] theorem State.setFlags_flags (s : State) (f : Flags) : (s.setFlags f).flags = f := rfl
@[simp] theorem State.setFlags_mem (s : State) (f : Flags) : (s.setFlags f).mem = s.mem := rfl
@[simp] theorem State.setFlags_halted (s : State) (f : Flags) : (s.setFlags f).halted = s.halted := rfl
@[simp] theorem State.setFlags_intInhibit (s : State) (f : Flags) : (s.setFlags f).intInhibit = s.intInhibit := rfl
@[simp] theorem State.setFlags_nmiPending (s : State) (f : Flags) : (s.setFlags f).nmiPending = s.nmiPending := rfl
@[simp] theorem State.setFlags_tfAtStart (s : State) (f : Flags) : (s.setFlags f).tfAtStart = s.tfAtStart := rfl
@[simp] theorem State.setFlags_waiting (s : State) (f : Flags) : (s.setFlags f).waiting = s.waiting := rfl
@[simp] theorem State.setFlags_justReset (s : State) (f : Flags) : (s.setFlags f).justReset = s.justReset := rfl
@[simp] theorem State.setFlags_startIp (s : State) (f : Flags) : (s.setFlags f).startIp = s.startIp := rfl
@[simp] theorem State.setFlags_pfx (s : State) (f : Flags) : (s.setFlags f).pfx = s.pfx := rfl
@[simp] theorem State.setFlags_staleCode (s : State) (f : Flags) : (s.setFlags f).staleCode = s.staleCode := rfl
@[simp] theorem State.setFlags_inputs (s : State) (f : Flags) : (s.setFlags f).inputs = s.inputs := rfl
@[simp] theorem State.setFlags_testLevel (s : State) (f : Flags) : (s.setFlags f).testLevel = s.testLevel := rfl
@[simp] theorem State.setFlags_portIn (s : State) (f : Flags) : (s.setFlags f).portIn = s.portIn := rfl
@[simp] theorem State.setFlags_io (s : State) (f : Flags) : (s.setFlags f).io = s.io := rfl
@[simp] theorem State.setFlags_freeCount (s : State) (f : Flags) : (s.setFlags f).freeCount = s.freeCount := rfl

/-! ### `State.setSp` -/

@[simp] theorem State.setSp_gpr (s : State) (v : Word) : (s.setSp v).gpr = { s.gpr with sp := v } := rfl
@[simp] theorem State.setSp_seg (s : State) (v : Word) : (s.setSp v).seg = s.seg := rfl
@[simp] theorem State.setSp_ip (s : State) (v : Word) : (s.setSp v).ip = s.ip := rfl
@[simp] theorem State.setSp_flags (s : State) (v : Word) : (s.setSp v).flags = s.flags := rfl
@[simp] theorem State.setSp_mem (s : State) (v : Word) : (s.setSp v).mem = s.mem := rfl
@[simp] theorem State.setSp_halted (s : State) (v : Word) : (s.setSp v).halted = s.halted := rfl
@[simp] theorem State.setSp_intInhibit (s : State) (v : Word) : (s.setSp v).intInhibit = s.intInhibit := rfl
@[simp] theorem State.setSp_nmiPending (s : State) (v : Word) : (s.setSp v).nmiPending = s.nmiPending := rfl
@[simp] theorem State.setSp_tfAtStart (s : State) (v : Word) : (s.setSp v).tfAtStart = s.tfAtStart := rfl
@[simp] theorem State.setSp_waiting (s : State) (v : Word) : (s.setSp v).waiting = s.waiting := rfl
@[simp] theorem State.setSp_justReset (s : State) (v : Word) : (s.setSp v).justReset = s.justReset := rfl
@[simp] theorem State.setSp_startIp (s : State) (v : Word) : (s.setSp v).startIp = s.startIp := rfl
@[simp] theorem State.setSp_pfx (s : State) (v : Word) : (s.setSp v).pfx = s.pfx := rfl
@[simp] theorem State.setSp_staleCode (s : State) (v : Word) : (s.setSp v).staleCode = s.staleCode := rfl
@[simp] theorem State.setSp_inputs (s : State) (v : Word) : (s.setSp v).inputs = s.inputs := rfl
@[simp] theorem State.setSp_testLevel (s : State) (v : Word) : (s.setSp v).testLevel = s.testLevel := rfl
@[simp] theorem State.setSp_portIn (s : State) (v : Word) : (s.setSp v).portIn = s.portIn := rfl
@[simp] theorem State.setSp_io (s : State) (v : Word) : (s.setSp v).io = s.io := rfl
@[simp] theorem State.setSp_freeCount (s : State) (v : Word) : (s.setSp v).freeCount = s.freeCount := rfl

/-! ### `State.setCs` -/

@[simp] theorem State.setCs_gpr (s : State) (v : Word) : (s.setCs v).gpr = s.gpr := rfl
@[simp] theorem State.setCs_seg (s : State) (v : Word) : (s.setCs v).seg = { s.seg with cs := v } := rfl
@[simp] theorem State.setCs_ip (s : State) (v : Word) : (s.setCs v).ip = s.ip := rfl
@[simp] theorem State.setCs_flags (s : State) (v : Word) : (s.setCs v).flags = s.flags := rfl
@[simp] theorem State.setCs_mem (s : State) (v : Word) : (s.setCs v).mem = s.mem := rfl
@[simp] theorem State.setCs_halted (s : State) (v : Word) : (s.setCs v).halted = s.halted := rfl
@[simp] theorem State.setCs_intInhibit (s : State) (v : Word) : (s.setCs v).intInhibit = s.intInhibit := rfl
@[simp] theorem State.setCs_nmiPending (s : State) (v : Word) : (s.setCs v).nmiPending = s.nmiPending := rfl
@[simp] theorem State.setCs_tfAtStart (s : State) (v : Word) : (s.setCs v).tfAtStart = s.tfAtStart := rfl
@[simp] theorem State.setCs_waiting (s : State) (v : Word) : (s.setCs v).waiting = s.waiting := rfl
@[simp] theorem State.setCs_justReset (s : State) (v : Word) : (s.setCs v).justReset = s.justReset := rfl
@[simp] theorem State.setCs_startIp (s : State) (v : Word) : (s.setCs v).startIp = s.startIp := rfl
@[simp] theorem State.setCs_pfx (s : State) (v : Word) : (s.setCs v).pfx = s.pfx := rfl
@[simp] theorem State.setCs_staleCode (s : State) (v : Word) : (s.setCs v).staleCode = s.staleCode := rfl
@[simp] theorem State.setCs_inputs (s : State) (v : Word) : (s.setCs v).inputs = s.inputs := rfl
@[simp] theorem State.setCs_testLevel (s : State) (v : Word) : (s.setCs v).testLevel = s.testLevel := rfl
@[simp] theorem State.setCs_portIn (s : State) (v : Word) : (s.setCs v).portIn = s.portIn := rfl
@[simp] theorem State.setCs_io (s : State) (v : Word) : (s.setCs v).io = s.io := rfl
@[simp] theorem State.setCs_freeCount (s : State) (v : Word) : (s.setCs v).freeCount = s.freeCount := rfl

/-! ### `State.setGpr` -/

@[simp] theorem State.setGpr_gpr (s : State) (g : Gpr) : (s.setGpr g).gpr = g := rfl
@[simp] theorem State.setGpr_seg (s : State) (g : Gpr) : (s.setGpr g).seg = s.seg := rfl
@[simp] theorem State.setGpr_ip (s : State) (g : Gpr) : (s.setGpr g).ip = s.ip := rfl
@[simp] theorem State.setGpr_flags (s : State) (g : Gpr) : (s.setGpr g).flags = s.flags := rfl
@[simp] theorem State.setGpr_mem (s : State) (g : Gpr) : (s.setGpr g).mem = s.mem := rfl
@[simp] theorem State.setGpr_halted (s : State) (g : Gpr) : (s.setGpr g).halted = s.halted := rfl
@[simp] theorem State.setGpr_intInhibit (s : State) (g : Gpr) : (s.setGpr g).intInhibit = s.intInhibit := rfl
@[simp] theorem State.setGpr_nmiPending (s : State) (g : Gpr) : (s.setGpr g).nmiPending = s.nmiPending := rfl
@[simp] theorem State.setGpr_tfAtStart (s : State) (g : Gpr) : (s.setGpr g).tfAtStart = s.tfAtStart := rfl
@[simp] theorem State.setGpr_waiting (s : State) (g : Gpr) : (s.setGpr g).waiting = s.waiting := rfl
@[simp] theorem State.setGpr_justReset (s : State) (g : Gpr) : (s.setGpr g).justReset = s.justReset := rfl
@[simp] theorem State.setGpr_startIp (s : State) (g : Gpr) : (s.setGpr g).startIp = s.startIp := rfl
@[simp] theorem State.setGpr_pfx (s : State) (g : Gpr) : (s.setGpr g).pfx = s.pfx := rfl
@[simp] theorem State.setGpr_staleCode (s : State) (g : Gpr) : (s.setGpr g).staleCode = s.staleCode := rfl
@[simp] theorem State.setGpr_inputs (s : State) (g : Gpr) : (s.setGpr g).inputs = s.inputs := rfl
@[simp] theorem State.setGpr_testLevel (s : State) (g : Gpr) : (s.setGpr g).testLevel = s.testLevel := rfl
@[simp] theorem State.setGpr_portIn (s : State) (g : Gpr) : (s.setGpr g).portIn = s.portIn := rfl
@[simp] theorem State.setGpr_io (s : State) (g : Gpr) : (s.setGpr g).io = s.io := rfl
@[simp] theorem State.setGpr_freeCount (s : State) (g : Gpr) : (s.setGpr g).freeCount = s.freeCount := rfl

/-! ### `State.setReg` -/

@[simp] theorem State.setReg_gpr (s : State) (r : RegField) (v : Word) : (s.setReg r v).gpr = s.gpr.set r v := rfl
@[simp] theorem State.setReg_seg (s : State) (r : RegField) (v : Word) : (s.setReg r v).seg = s.seg := rfl
@[simp] theorem State.setReg_ip (s : State) (r : RegField) (v : Word) : (s.setReg r v).ip = s.ip := rfl
@[simp] theorem State.setReg_flags (s : State) (r : RegField) (v : Word) : (s.setReg r v).flags = s.flags := rfl
@[simp] theorem State.setReg_mem (s : State) (r : RegField) (v : Word) : (s.setReg r v).mem = s.mem := rfl
@[simp] theorem State.setReg_halted (s : State) (r : RegField) (v : Word) : (s.setReg r v).halted = s.halted := rfl
@[simp] theorem State.setReg_intInhibit (s : State) (r : RegField) (v : Word) : (s.setReg r v).intInhibit = s.intInhibit := rfl
@[simp] theorem State.setReg_nmiPending (s : State) (r : RegField) (v : Word) : (s.setReg r v).nmiPending = s.nmiPending := rfl
@[simp] theorem State.setReg_tfAtStart (s : State) (r : RegField) (v : Word) : (s.setReg r v).tfAtStart = s.tfAtStart := rfl
@[simp] theorem State.setReg_waiting (s : State) (r : RegField) (v : Word) : (s.setReg r v).waiting = s.waiting := rfl
@[simp] theorem State.setReg_justReset (s : State) (r : RegField) (v : Word) : (s.setReg r v).justReset = s.justReset := rfl
@[simp] theorem State.setReg_startIp (s : State) (r : RegField) (v : Word) : (s.setReg r v).startIp = s.startIp := rfl
@[simp] theorem State.setReg_pfx (s : State) (r : RegField) (v : Word) : (s.setReg r v).pfx = s.pfx := rfl
@[simp] theorem State.setReg_staleCode (s : State) (r : RegField) (v : Word) : (s.setReg r v).staleCode = s.staleCode := rfl
@[simp] theorem State.setReg_inputs (s : State) (r : RegField) (v : Word) : (s.setReg r v).inputs = s.inputs := rfl
@[simp] theorem State.setReg_testLevel (s : State) (r : RegField) (v : Word) : (s.setReg r v).testLevel = s.testLevel := rfl
@[simp] theorem State.setReg_portIn (s : State) (r : RegField) (v : Word) : (s.setReg r v).portIn = s.portIn := rfl
@[simp] theorem State.setReg_io (s : State) (r : RegField) (v : Word) : (s.setReg r v).io = s.io := rfl
@[simp] theorem State.setReg_freeCount (s : State) (r : RegField) (v : Word) : (s.setReg r v).freeCount = s.freeCount := rfl

/-! ### `State.setByteReg` -/

@[simp] theorem State.setByteReg_gpr (s : State) (r : RegField) (v : Byte) : (s.setByteReg r v).gpr = s.gpr.setByte r v := rfl
@[simp] theorem State.setByteReg_seg (s : State) (r : RegField) (v : Byte) : (s.setByteReg r v).seg = s.seg := rfl
@[simp] theorem State.setByteReg_ip (s : State) (r : RegField) (v : Byte) : (s.setByteReg r v).ip = s.ip := rfl
@[simp] theorem State.setByteReg_flags (s : State) (r : RegField) (v : Byte) : (s.setByteReg r v).flags = s.flags := rfl
@[simp] theorem State.setByteReg_mem (s : State) (r : RegField) (v : Byte) : (s.setByteReg r v).mem = s.mem := rfl
@[simp] theorem State.setByteReg_halted (s : State) (r : RegField) (v : Byte) : (s.setByteReg r v).halted = s.halted := rfl
@[simp] theorem State.setByteReg_intInhibit (s : State) (r : RegField) (v : Byte) : (s.setByteReg r v).intInhibit = s.intInhibit := rfl
@[simp] theorem State.setByteReg_nmiPending (s : State) (r : RegField) (v : Byte) : (s.setByteReg r v).nmiPending = s.nmiPending := rfl
@[simp] theorem State.setByteReg_tfAtStart (s : State) (r : RegField) (v : Byte) : (s.setByteReg r v).tfAtStart = s.tfAtStart := rfl
@[simp] theorem State.setByteReg_waiting (s : State) (r : RegField) (v : Byte) : (s.setByteReg r v).waiting = s.waiting := rfl
@[simp] theorem State.setByteReg_justReset (s : State) (r : RegField) (v : Byte) : (s.setByteReg r v).justReset = s.justReset := rfl
@[simp] theorem State.setByteReg_startIp (s : State) (r : RegField) (v : Byte) : (s.setByteReg r v).startIp = s.startIp := rfl
@[simp] theorem State.setByteReg_pfx (s : State) (r : RegField) (v : Byte) : (s.setByteReg r v).pfx = s.pfx := rfl
@[simp] theorem State.setByteReg_staleCode (s : State) (r : RegField) (v : Byte) : (s.setByteReg r v).staleCode = s.staleCode := rfl
@[simp] theorem State.setByteReg_inputs (s : State) (r : RegField) (v : Byte) : (s.setByteReg r v).inputs = s.inputs := rfl
@[simp] theorem State.setByteReg_testLevel (s : State) (r : RegField) (v : Byte) : (s.setByteReg r v).testLevel = s.testLevel := rfl
@[simp] theorem State.setByteReg_portIn (s : State) (r : RegField) (v : Byte) : (s.setByteReg r v).portIn = s.portIn := rfl
@[simp] theorem State.setByteReg_io (s : State) (r : RegField) (v : Byte) : (s.setByteReg r v).io = s.io := rfl
@[simp] theorem State.setByteReg_freeCount (s : State) (r : RegField) (v : Byte) : (s.setByteReg r v).freeCount = s.freeCount := rfl

/-! ### `State.setSreg` -/

@[simp] theorem State.setSreg_gpr (s : State) (r : SReg) (v : Word) : (s.setSreg r v).gpr = s.gpr := rfl
@[simp] theorem State.setSreg_seg (s : State) (r : SReg) (v : Word) : (s.setSreg r v).seg = s.seg.set r v := rfl
@[simp] theorem State.setSreg_ip (s : State) (r : SReg) (v : Word) : (s.setSreg r v).ip = s.ip := rfl
@[simp] theorem State.setSreg_flags (s : State) (r : SReg) (v : Word) : (s.setSreg r v).flags = s.flags := rfl
@[simp] theorem State.setSreg_mem (s : State) (r : SReg) (v : Word) : (s.setSreg r v).mem = s.mem := rfl
@[simp] theorem State.setSreg_halted (s : State) (r : SReg) (v : Word) : (s.setSreg r v).halted = s.halted := rfl
@[simp] theorem State.setSreg_intInhibit (s : State) (r : SReg) (v : Word) : (s.setSreg r v).intInhibit = s.intInhibit := rfl
@[simp] theorem State.setSreg_nmiPending (s : State) (r : SReg) (v : Word) : (s.setSreg r v).nmiPending = s.nmiPending := rfl
@[simp] theorem State.setSreg_tfAtStart (s : State) (r : SReg) (v : Word) : (s.setSreg r v).tfAtStart = s.tfAtStart := rfl
@[simp] theorem State.setSreg_waiting (s : State) (r : SReg) (v : Word) : (s.setSreg r v).waiting = s.waiting := rfl
@[simp] theorem State.setSreg_justReset (s : State) (r : SReg) (v : Word) : (s.setSreg r v).justReset = s.justReset := rfl
@[simp] theorem State.setSreg_startIp (s : State) (r : SReg) (v : Word) : (s.setSreg r v).startIp = s.startIp := rfl
@[simp] theorem State.setSreg_pfx (s : State) (r : SReg) (v : Word) : (s.setSreg r v).pfx = s.pfx := rfl
@[simp] theorem State.setSreg_staleCode (s : State) (r : SReg) (v : Word) : (s.setSreg r v).staleCode = s.staleCode := rfl
@[simp] theorem State.setSreg_inputs (s : State) (r : SReg) (v : Word) : (s.setSreg r v).inputs = s.inputs := rfl
@[simp] theorem State.setSreg_testLevel (s : State) (r : SReg) (v : Word) : (s.setSreg r v).testLevel = s.testLevel := rfl
@[simp] theorem State.setSreg_portIn (s : State) (r : SReg) (v : Word) : (s.setSreg r v).portIn = s.portIn := rfl
@[simp] theorem State.setSreg_io (s : State) (r : SReg) (v : Word) : (s.setSreg r v).io = s.io := rfl
@[simp] theorem State.setSreg_freeCount (s : State) (r : SReg) (v : Word) : (s.setSreg r v).freeCount = s.freeCount := rfl

/-! ### `State.decCx` -/

@[simp] theorem State.decCx_gpr (s : State) : s.decCx.gpr = { s.gpr with cx := s.gpr.cx - 1 } := rfl
@[simp] theorem State.decCx_seg (s : State) : s.decCx.seg = s.seg := rfl
@[simp] theorem State.decCx_ip (s : State) : s.decCx.ip = s.ip := rfl
@[simp] theorem State.decCx_flags (s : State) : s.decCx.flags = s.flags := rfl
@[simp] theorem State.decCx_mem (s : State) : s.decCx.mem = s.mem := rfl
@[simp] theorem State.decCx_halted (s : State) : s.decCx.halted = s.halted := rfl
@[simp] theorem State.decCx_intInhibit (s : State) : s.decCx.intInhibit = s.intInhibit := rfl
@[simp] theorem State.decCx_nmiPending (s : State) : s.decCx.nmiPending = s.nmiPending := rfl
@[simp] theorem State.decCx_tfAtStart (s : State) : s.decCx.tfAtStart = s.tfAtStart := rfl
@[simp] theorem State.decCx_waiting (s : State) : s.decCx.waiting = s.waiting := rfl
@[simp] theorem State.decCx_justReset (s : State) : s.decCx.justReset = s.justReset := rfl
@[simp] theorem State.decCx_startIp (s : State) : s.decCx.startIp = s.startIp := rfl
@[simp] theorem State.decCx_pfx (s : State) : s.decCx.pfx = s.pfx := rfl
@[simp] theorem State.decCx_staleCode (s : State) : s.decCx.staleCode = s.staleCode := rfl
@[simp] theorem State.decCx_inputs (s : State) : s.decCx.inputs = s.inputs := rfl
@[simp] theorem State.decCx_testLevel (s : State) : s.decCx.testLevel = s.testLevel := rfl
@[simp] theorem State.decCx_portIn (s : State) : s.decCx.portIn = s.portIn := rfl
@[simp] theorem State.decCx_io (s : State) : s.decCx.io = s.io := rfl
@[simp] theorem State.decCx_freeCount (s : State) : s.decCx.freeCount = s.freeCount := rfl

/-! ### `State.drawn` -/

@[simp] theorem State.drawn_gpr (s : State) : s.drawn.gpr = s.gpr := rfl
@[simp] theorem State.drawn_seg (s : State) : s.drawn.seg = s.seg := rfl
@[simp] theorem State.drawn_ip (s : State) : s.drawn.ip = s.ip := rfl
@[simp] theorem State.drawn_flags (s : State) : s.drawn.flags = s.flags := rfl
@[simp] theorem State.drawn_mem (s : State) : s.drawn.mem = s.mem := rfl
@[simp] theorem State.drawn_halted (s : State) : s.drawn.halted = s.halted := rfl
@[simp] theorem State.drawn_intInhibit (s : State) : s.drawn.intInhibit = s.intInhibit := rfl
@[simp] theorem State.drawn_nmiPending (s : State) : s.drawn.nmiPending = s.nmiPending := rfl
@[simp] theorem State.drawn_tfAtStart (s : State) : s.drawn.tfAtStart = s.tfAtStart := rfl
@[simp] theorem State.drawn_waiting (s : State) : s.drawn.waiting = s.waiting := rfl
@[simp] theorem State.drawn_justReset (s : State) : s.drawn.justReset = s.justReset := rfl
@[simp] theorem State.drawn_startIp (s : State) : s.drawn.startIp = s.startIp := rfl
@[simp] theorem State.drawn_pfx (s : State) : s.drawn.pfx = s.pfx := rfl
@[simp] theorem State.drawn_staleCode (s : State) : s.drawn.staleCode = s.staleCode := rfl
@[simp] theorem State.drawn_inputs (s : State) : s.drawn.inputs = s.inputs := rfl
@[simp] theorem State.drawn_testLevel (s : State) : s.drawn.testLevel = s.testLevel := rfl
@[simp] theorem State.drawn_portIn (s : State) : s.drawn.portIn = s.portIn := rfl
@[simp] theorem State.drawn_io (s : State) : s.drawn.io = s.io := rfl
@[simp] theorem State.drawn_freeCount (s : State) : s.drawn.freeCount = s.freeCount + 1 := rfl

/-! ### `State.logIo` -/

@[simp] theorem State.logIo_gpr (s : State) (e : IoEvent) : (s.logIo e).gpr = s.gpr := rfl
@[simp] theorem State.logIo_seg (s : State) (e : IoEvent) : (s.logIo e).seg = s.seg := rfl
@[simp] theorem State.logIo_ip (s : State) (e : IoEvent) : (s.logIo e).ip = s.ip := rfl
@[simp] theorem State.logIo_flags (s : State) (e : IoEvent) : (s.logIo e).flags = s.flags := rfl
@[simp] theorem State.logIo_mem (s : State) (e : IoEvent) : (s.logIo e).mem = s.mem := rfl
@[simp] theorem State.logIo_halted (s : State) (e : IoEvent) : (s.logIo e).halted = s.halted := rfl
@[simp] theorem State.logIo_intInhibit (s : State) (e : IoEvent) : (s.logIo e).intInhibit = s.intInhibit := rfl
@[simp] theorem State.logIo_nmiPending (s : State) (e : IoEvent) : (s.logIo e).nmiPending = s.nmiPending := rfl
@[simp] theorem State.logIo_tfAtStart (s : State) (e : IoEvent) : (s.logIo e).tfAtStart = s.tfAtStart := rfl
@[simp] theorem State.logIo_waiting (s : State) (e : IoEvent) : (s.logIo e).waiting = s.waiting := rfl
@[simp] theorem State.logIo_justReset (s : State) (e : IoEvent) : (s.logIo e).justReset = s.justReset := rfl
@[simp] theorem State.logIo_startIp (s : State) (e : IoEvent) : (s.logIo e).startIp = s.startIp := rfl
@[simp] theorem State.logIo_pfx (s : State) (e : IoEvent) : (s.logIo e).pfx = s.pfx := rfl
@[simp] theorem State.logIo_staleCode (s : State) (e : IoEvent) : (s.logIo e).staleCode = s.staleCode := rfl
@[simp] theorem State.logIo_inputs (s : State) (e : IoEvent) : (s.logIo e).inputs = s.inputs := rfl
@[simp] theorem State.logIo_testLevel (s : State) (e : IoEvent) : (s.logIo e).testLevel = s.testLevel := rfl
@[simp] theorem State.logIo_portIn (s : State) (e : IoEvent) : (s.logIo e).portIn = s.portIn := rfl
@[simp] theorem State.logIo_io (s : State) (e : IoEvent) : (s.logIo e).io = s.io ++ [e] := rfl
@[simp] theorem State.logIo_freeCount (s : State) (e : IoEvent) : (s.logIo e).freeCount = s.freeCount := rfl

/-! ### `State.jump` -/

@[simp] theorem State.jump_gpr (s : State) (v : Word) : (s.jump v).gpr = s.gpr := rfl
@[simp] theorem State.jump_seg (s : State) (v : Word) : (s.jump v).seg = s.seg := rfl
@[simp] theorem State.jump_ip (s : State) (v : Word) : (s.jump v).ip = v := rfl
@[simp] theorem State.jump_flags (s : State) (v : Word) : (s.jump v).flags = s.flags := rfl
@[simp] theorem State.jump_mem (s : State) (v : Word) : (s.jump v).mem = s.mem := rfl
@[simp] theorem State.jump_halted (s : State) (v : Word) : (s.jump v).halted = s.halted := rfl
@[simp] theorem State.jump_intInhibit (s : State) (v : Word) : (s.jump v).intInhibit = s.intInhibit := rfl
@[simp] theorem State.jump_nmiPending (s : State) (v : Word) : (s.jump v).nmiPending = s.nmiPending := rfl
@[simp] theorem State.jump_tfAtStart (s : State) (v : Word) : (s.jump v).tfAtStart = s.tfAtStart := rfl
@[simp] theorem State.jump_waiting (s : State) (v : Word) : (s.jump v).waiting = s.waiting := rfl
@[simp] theorem State.jump_justReset (s : State) (v : Word) : (s.jump v).justReset = s.justReset := rfl
@[simp] theorem State.jump_startIp (s : State) (v : Word) : (s.jump v).startIp = s.startIp := rfl
@[simp] theorem State.jump_pfx (s : State) (v : Word) : (s.jump v).pfx = s.pfx := rfl
@[simp] theorem State.jump_staleCode (s : State) (v : Word) : (s.jump v).staleCode = [] := rfl
@[simp] theorem State.jump_inputs (s : State) (v : Word) : (s.jump v).inputs = s.inputs := rfl
@[simp] theorem State.jump_testLevel (s : State) (v : Word) : (s.jump v).testLevel = s.testLevel := rfl
@[simp] theorem State.jump_portIn (s : State) (v : Word) : (s.jump v).portIn = s.portIn := rfl
@[simp] theorem State.jump_io (s : State) (v : Word) : (s.jump v).io = s.io := rfl
@[simp] theorem State.jump_freeCount (s : State) (v : Word) : (s.jump v).freeCount = s.freeCount := rfl

/-! ### `State.jumpFar` -/

@[simp] theorem State.jumpFar_gpr (s : State) (c v : Word) : (s.jumpFar c v).gpr = s.gpr := rfl
@[simp] theorem State.jumpFar_seg (s : State) (c v : Word) : (s.jumpFar c v).seg = { s.seg with cs := c } := rfl
@[simp] theorem State.jumpFar_ip (s : State) (c v : Word) : (s.jumpFar c v).ip = v := rfl
@[simp] theorem State.jumpFar_flags (s : State) (c v : Word) : (s.jumpFar c v).flags = s.flags := rfl
@[simp] theorem State.jumpFar_mem (s : State) (c v : Word) : (s.jumpFar c v).mem = s.mem := rfl
@[simp] theorem State.jumpFar_halted (s : State) (c v : Word) : (s.jumpFar c v).halted = s.halted := rfl
@[simp] theorem State.jumpFar_intInhibit (s : State) (c v : Word) : (s.jumpFar c v).intInhibit = s.intInhibit := rfl
@[simp] theorem State.jumpFar_nmiPending (s : State) (c v : Word) : (s.jumpFar c v).nmiPending = s.nmiPending := rfl
@[simp] theorem State.jumpFar_tfAtStart (s : State) (c v : Word) : (s.jumpFar c v).tfAtStart = s.tfAtStart := rfl
@[simp] theorem State.jumpFar_waiting (s : State) (c v : Word) : (s.jumpFar c v).waiting = s.waiting := rfl
@[simp] theorem State.jumpFar_justReset (s : State) (c v : Word) : (s.jumpFar c v).justReset = s.justReset := rfl
@[simp] theorem State.jumpFar_startIp (s : State) (c v : Word) : (s.jumpFar c v).startIp = s.startIp := rfl
@[simp] theorem State.jumpFar_pfx (s : State) (c v : Word) : (s.jumpFar c v).pfx = s.pfx := rfl
@[simp] theorem State.jumpFar_staleCode (s : State) (c v : Word) : (s.jumpFar c v).staleCode = [] := rfl
@[simp] theorem State.jumpFar_inputs (s : State) (c v : Word) : (s.jumpFar c v).inputs = s.inputs := rfl
@[simp] theorem State.jumpFar_testLevel (s : State) (c v : Word) : (s.jumpFar c v).testLevel = s.testLevel := rfl
@[simp] theorem State.jumpFar_portIn (s : State) (c v : Word) : (s.jumpFar c v).portIn = s.portIn := rfl
@[simp] theorem State.jumpFar_io (s : State) (c v : Word) : (s.jumpFar c v).io = s.io := rfl
@[simp] theorem State.jumpFar_freeCount (s : State) (c v : Word) : (s.jumpFar c v).freeCount = s.freeCount := rfl

/-! ### `State.storeByte` -/

@[simp] theorem State.storeByte_gpr (s : State) (a : Nat) (b : Byte) : (s.storeByte a b).gpr = s.gpr := rfl
@[simp] theorem State.storeByte_seg (s : State) (a : Nat) (b : Byte) : (s.storeByte a b).seg = s.seg := rfl
@[simp] theorem State.storeByte_ip (s : State) (a : Nat) (b : Byte) : (s.storeByte a b).ip = s.ip := rfl
@[simp] theorem State.storeByte_flags (s : State) (a : Nat) (b : Byte) : (s.storeByte a b).flags = s.flags := rfl
@[simp] theorem State.storeByte_mem (s : State) (a : Nat) (b : Byte) : (s.storeByte a b).mem = s.mem.write a b := rfl
@[simp] theorem State.storeByte_halted (s : State) (a : Nat) (b : Byte) : (s.storeByte a b).halted = s.halted := rfl
@[simp] theorem State.storeByte_intInhibit (s : State) (a : Nat) (b : Byte) : (s.storeByte a b).intInhibit = s.intInhibit := rfl
@[simp] theorem State.storeByte_nmiPending (s : State) (a : Nat) (b : Byte) : (s.storeByte a b).nmiPending = s.nmiPending := rfl
@[simp] theorem State.storeByte_tfAtStart (s : State) (a : Nat) (b : Byte) : (s.storeByte a b).tfAtStart = s.tfAtStart := rfl
@[simp] theorem State.storeByte_waiting (s : State) (a : Nat) (b : Byte) : (s.storeByte a b).waiting = s.waiting := rfl
@[simp] theorem State.storeByte_justReset (s : State) (a : Nat) (b : Byte) : (s.storeByte a b).justReset = s.justReset := rfl
@[simp] theorem State.storeByte_startIp (s : State) (a : Nat) (b : Byte) : (s.storeByte a b).startIp = s.startIp := rfl
@[simp] theorem State.storeByte_pfx (s : State) (a : Nat) (b : Byte) : (s.storeByte a b).pfx = s.pfx := rfl
@[simp] theorem State.storeByte_inputs (s : State) (a : Nat) (b : Byte) : (s.storeByte a b).inputs = s.inputs := rfl
@[simp] theorem State.storeByte_testLevel (s : State) (a : Nat) (b : Byte) : (s.storeByte a b).testLevel = s.testLevel := rfl
@[simp] theorem State.storeByte_portIn (s : State) (a : Nat) (b : Byte) : (s.storeByte a b).portIn = s.portIn := rfl
@[simp] theorem State.storeByte_io (s : State) (a : Nat) (b : Byte) : (s.storeByte a b).io = s.io := rfl
@[simp] theorem State.storeByte_freeCount (s : State) (a : Nat) (b : Byte) : (s.storeByte a b).freeCount = s.freeCount := rfl

/-! ### `State.writeByte` -/

@[simp] theorem State.writeByte_gpr (s : State) (sg off : Word) (b : Byte) : (s.writeByte sg off b).gpr = s.gpr := rfl
@[simp] theorem State.writeByte_seg (s : State) (sg off : Word) (b : Byte) : (s.writeByte sg off b).seg = s.seg := rfl
@[simp] theorem State.writeByte_ip (s : State) (sg off : Word) (b : Byte) : (s.writeByte sg off b).ip = s.ip := rfl
@[simp] theorem State.writeByte_flags (s : State) (sg off : Word) (b : Byte) : (s.writeByte sg off b).flags = s.flags := rfl
@[simp] theorem State.writeByte_mem (s : State) (sg off : Word) (b : Byte) : (s.writeByte sg off b).mem = s.mem.write (phys sg off) b := rfl
@[simp] theorem State.writeByte_halted (s : State) (sg off : Word) (b : Byte) : (s.writeByte sg off b).halted = s.halted := rfl
@[simp] theorem State.writeByte_intInhibit (s : State) (sg off : Word) (b : Byte) : (s.writeByte sg off b).intInhibit = s.intInhibit := rfl
@[simp] theorem State.writeByte_nmiPending (s : State) (sg off : Word) (b : Byte) : (s.writeByte sg off b).nmiPending = s.nmiPending := rfl
@[simp] theorem State.writeByte_tfAtStart (s : State) (sg off : Word) (b : Byte) : (s.writeByte sg off b).tfAtStart = s.tfAtStart := rfl
@[simp] theorem State.writeByte_waiting (s : State) (sg off : Word) (b : Byte) : (s.writeByte sg off b).waiting = s.waiting := rfl
@[simp] theorem State.writeByte_justReset (s : State) (sg off : Word) (b : Byte) : (s.writeByte sg off b).justReset = s.justReset := rfl
@[simp] theorem State.writeByte_startIp (s : State) (sg off : Word) (b : Byte) : (s.writeByte sg off b).startIp = s.startIp := rfl
@[simp] theorem State.writeByte_pfx (s : State) (sg off : Word) (b : Byte) : (s.writeByte sg off b).pfx = s.pfx := rfl
@[simp] theorem State.writeByte_inputs (s : State) (sg off : Word) (b : Byte) : (s.writeByte sg off b).inputs = s.inputs := rfl
@[simp] theorem State.writeByte_testLevel (s : State) (sg off : Word) (b : Byte) : (s.writeByte sg off b).testLevel = s.testLevel := rfl
@[simp] theorem State.writeByte_portIn (s : State) (sg off : Word) (b : Byte) : (s.writeByte sg off b).portIn = s.portIn := rfl
@[simp] theorem State.writeByte_io (s : State) (sg off : Word) (b : Byte) : (s.writeByte sg off b).io = s.io := rfl
@[simp] theorem State.writeByte_freeCount (s : State) (sg off : Word) (b : Byte) : (s.writeByte sg off b).freeCount = s.freeCount := rfl

/-! ### `State.writeWord` -/

@[simp] theorem State.writeWord_gpr (s : State) (sg off v : Word) : (s.writeWord sg off v).gpr = s.gpr := rfl
@[simp] theorem State.writeWord_seg (s : State) (sg off v : Word) : (s.writeWord sg off v).seg = s.seg := rfl
@[simp] theorem State.writeWord_ip (s : State) (sg off v : Word) : (s.writeWord sg off v).ip = s.ip := rfl
@[simp] theorem State.writeWord_flags (s : State) (sg off v : Word) : (s.writeWord sg off v).flags = s.flags := rfl
@[simp] theorem State.writeWord_mem (s : State) (sg off v : Word) : (s.writeWord sg off v).mem = (s.mem.write (phys sg off) (loByte v)).write (phys sg (off + 1)) (hiByte v) := rfl
@[simp] theorem State.writeWord_halted (s : State) (sg off v : Word) : (s.writeWord sg off v).halted = s.halted := rfl
@[simp] theorem State.writeWord_intInhibit (s : State) (sg off v : Word) : (s.writeWord sg off v).intInhibit = s.intInhibit := rfl
@[simp] theorem State.writeWord_nmiPending (s : State) (sg off v : Word) : (s.writeWord sg off v).nmiPending = s.nmiPending := rfl
@[simp] theorem State.writeWord_tfAtStart (s : State) (sg off v : Word) : (s.writeWord sg off v).tfAtStart = s.tfAtStart := rfl
@[simp] theorem State.writeWord_waiting (s : State) (sg off v : Word) : (s.writeWord sg off v).waiting = s.waiting := rfl
@[simp] theorem State.writeWord_justReset (s : State) (sg off v : Word) : (s.writeWord sg off v).justReset = s.justReset := rfl
@[simp] theorem State.writeWord_startIp (s : State) (sg off v : Word) : (s.writeWord sg off v).startIp = s.startIp := rfl
@[simp] theorem State.writeWord_pfx (s : State) (sg off v : Word) : (s.writeWord sg off v).pfx = s.pfx := rfl
@[simp] theorem State.writeWord_inputs (s : State) (sg off v : Word) : (s.writeWord sg off v).inputs = s.inputs := rfl
@[simp] theorem State.writeWord_testLevel (s : State) (sg off v : Word) : (s.writeWord sg off v).testLevel = s.testLevel := rfl
@[simp] theorem State.writeWord_portIn (s : State) (sg off v : Word) : (s.writeWord sg off v).portIn = s.portIn := rfl
@[simp] theorem State.writeWord_io (s : State) (sg off v : Word) : (s.writeWord sg off v).io = s.io := rfl
@[simp] theorem State.writeWord_freeCount (s : State) (sg off v : Word) : (s.writeWord sg off v).freeCount = s.freeCount := rfl

/-! ### `State.push` -/

@[simp] theorem State.push_gpr (s : State) (v : Word) : (s.push v).gpr = { s.gpr with sp := s.gpr.sp - 2 } := rfl
@[simp] theorem State.push_seg (s : State) (v : Word) : (s.push v).seg = s.seg := rfl
@[simp] theorem State.push_ip (s : State) (v : Word) : (s.push v).ip = s.ip := rfl
@[simp] theorem State.push_flags (s : State) (v : Word) : (s.push v).flags = s.flags := rfl
@[simp] theorem State.push_mem (s : State) (v : Word) : (s.push v).mem = (s.mem.write (phys s.seg.ss (s.gpr.sp - 2)) (loByte v)).write (phys s.seg.ss (s.gpr.sp - 2 + 1)) (hiByte v) := rfl
@[simp] theorem State.push_halted (s : State) (v : Word) : (s.push v).halted = s.halted := rfl
@[simp] theorem State.push_intInhibit (s : State) (v : Word) : (s.push v).intInhibit = s.intInhibit := rfl
@[simp] theorem State.push_nmiPending (s : State) (v : Word) : (s.push v).nmiPending = s.nmiPending := rfl
@[simp] theorem State.push_tfAtStart (s : State) (v : Word) : (s.push v).tfAtStart = s.tfAtStart := rfl
@[simp] theorem State.push_waiting (s : State) (v : Word) : (s.push v).waiting = s.waiting := rfl
@[simp] theorem State.push_justReset (s : State) (v : Word) : (s.push v).justReset = s.justReset := rfl
@[simp] theorem State.push_startIp (s : State) (v : Word) : (s.push v).startIp = s.startIp := rfl
@[simp] theorem State.push_pfx (s : State) (v : Word) : (s.push v).pfx = s.pfx := rfl
@[simp] theorem State.push_inputs (s : State) (v : Word) : (s.push v).inputs = s.inputs := rfl
@[simp] theorem State.push_testLevel (s : State) (v : Word) : (s.push v).testLevel = s.testLevel := rfl
@[simp] theorem State.push_portIn (s : State) (v : Word) : (s.push v).portIn = s.portIn := rfl
@[simp] theorem State.push_io (s : State) (v : Word) : (s.push v).io = s.io := rfl
@[simp] theorem State.push_freeCount (s : State) (v : Word) : (s.push v).freeCount = s.freeCount := rfl

/-! ### `State.popped` -/

@[simp] theorem State.popped_gpr (s : State) : s.popped.gpr = { s.gpr with sp := s.gpr.sp + 2 } := rfl
@[simp] theorem State.popped_seg (s : State) : s.popped.seg = s.seg := rfl
@[simp] theorem State.popped_ip (s : State) : s.popped.ip = s.ip := rfl
@[simp] theorem State.popped_flags (s : State) : s.popped.flags = s.flags := rfl
@[simp] theorem State.popped_mem (s : State) : s.popped.mem = s.mem := rfl
@[simp] theorem State.popped_halted (s : State) : s.popped.halted = s.halted := rfl
@[simp] theorem State.popped_intInhibit (s : State) : s.popped.intInhibit = s.intInhibit := rfl
@[simp] theorem State.popped_nmiPending (s : State) : s.popped.nmiPending = s.nmiPending := rfl
@[simp] theorem State.popped_tfAtStart (s : State) : s.popped.tfAtStart = s.tfAtStart := rfl
@[simp] theorem State.popped_waiting (s : State) : s.popped.waiting = s.waiting := rfl
@[simp] theorem State.popped_justReset (s : State) : s.popped.justReset = s.justReset := rfl
@[simp] theorem State.popped_startIp (s : State) : s.popped.startIp = s.startIp := rfl
@[simp] theorem State.popped_pfx (s : State) : s.popped.pfx = s.pfx := rfl
@[simp] theorem State.popped_staleCode (s : State) : s.popped.staleCode = s.staleCode := rfl
@[simp] theorem State.popped_inputs (s : State) : s.popped.inputs = s.inputs := rfl
@[simp] theorem State.popped_testLevel (s : State) : s.popped.testLevel = s.testLevel := rfl
@[simp] theorem State.popped_portIn (s : State) : s.popped.portIn = s.portIn := rfl
@[simp] theorem State.popped_io (s : State) : s.popped.io = s.io := rfl
@[simp] theorem State.popped_freeCount (s : State) : s.popped.freeCount = s.freeCount := rfl

/-! ### `State.pastBoundary` -/

@[simp] theorem State.pastBoundary_gpr (s : State) : s.pastBoundary.gpr = s.gpr := rfl
@[simp] theorem State.pastBoundary_seg (s : State) : s.pastBoundary.seg = s.seg := rfl
@[simp] theorem State.pastBoundary_ip (s : State) : s.pastBoundary.ip = s.ip := rfl
@[simp] theorem State.pastBoundary_flags (s : State) : s.pastBoundary.flags = s.flags := rfl
@[simp] theorem State.pastBoundary_mem (s : State) : s.pastBoundary.mem = if s.pfx.lock then s.mem else s.agentsWrite.mem := rfl
@[simp] theorem State.pastBoundary_halted (s : State) : s.pastBoundary.halted = s.halted := rfl
@[simp] theorem State.pastBoundary_intInhibit (s : State) : s.pastBoundary.intInhibit = s.intInhibit := rfl
@[simp] theorem State.pastBoundary_nmiPending (s : State) : s.pastBoundary.nmiPending = s.nmiNow := rfl
@[simp] theorem State.pastBoundary_tfAtStart (s : State) : s.pastBoundary.tfAtStart = s.tfAtStart := rfl
@[simp] theorem State.pastBoundary_waiting (s : State) : s.pastBoundary.waiting = s.waiting := rfl
@[simp] theorem State.pastBoundary_justReset (s : State) : s.pastBoundary.justReset = s.justReset := rfl
@[simp] theorem State.pastBoundary_startIp (s : State) : s.pastBoundary.startIp = s.startIp := rfl
@[simp] theorem State.pastBoundary_pfx (s : State) : s.pastBoundary.pfx = s.pfx := rfl
@[simp] theorem State.pastBoundary_staleCode (s : State) : s.pastBoundary.staleCode = if s.pfx.lock then s.staleCode else s.agentsWrite.staleCode := rfl
@[simp] theorem State.pastBoundary_inputs (s : State) : s.pastBoundary.inputs = if s.pfx.lock then s.heldInputs else s.inputs.tail := rfl
@[simp] theorem State.pastBoundary_testLevel (s : State) : s.pastBoundary.testLevel = s.testLevel := rfl
@[simp] theorem State.pastBoundary_portIn (s : State) : s.pastBoundary.portIn = s.portIn := rfl
@[simp] theorem State.pastBoundary_io (s : State) : s.pastBoundary.io = s.io := rfl
@[simp] theorem State.pastBoundary_freeCount (s : State) : s.pastBoundary.freeCount = s.freeCount := rfl

/-! ### `State.resetNext` -/

@[simp] theorem State.resetNext_gpr (s : State) : s.resetNext.gpr = s.gpr := rfl
@[simp] theorem State.resetNext_seg (s : State) : s.resetNext.seg = s.seg := rfl
@[simp] theorem State.resetNext_ip (s : State) : s.resetNext.ip = s.ip := rfl
@[simp] theorem State.resetNext_flags (s : State) : s.resetNext.flags = s.flags := rfl
@[simp] theorem State.resetNext_mem (s : State) : s.resetNext.mem = s.mem := rfl
@[simp] theorem State.resetNext_halted (s : State) : s.resetNext.halted = s.halted := rfl
@[simp] theorem State.resetNext_intInhibit (s : State) : s.resetNext.intInhibit = s.intInhibit := rfl
@[simp] theorem State.resetNext_nmiPending (s : State) : s.resetNext.nmiPending = s.nmiPending := rfl
@[simp] theorem State.resetNext_tfAtStart (s : State) : s.resetNext.tfAtStart = s.tfAtStart := rfl
@[simp] theorem State.resetNext_waiting (s : State) : s.resetNext.waiting = s.waiting := rfl
@[simp] theorem State.resetNext_justReset (s : State) : s.resetNext.justReset = s.justReset := rfl
@[simp] theorem State.resetNext_startIp (s : State) : s.resetNext.startIp = s.startIp := rfl
@[simp] theorem State.resetNext_pfx (s : State) : s.resetNext.pfx = s.pfx := rfl
@[simp] theorem State.resetNext_staleCode (s : State) : s.resetNext.staleCode = s.staleCode := rfl
@[simp] theorem State.resetNext_inputs (s : State) : s.resetNext.inputs = { s.input with reset := .atStart } :: s.inputs.tail := rfl
@[simp] theorem State.resetNext_testLevel (s : State) : s.resetNext.testLevel = s.testLevel := rfl
@[simp] theorem State.resetNext_portIn (s : State) : s.resetNext.portIn = s.portIn := rfl
@[simp] theorem State.resetNext_io (s : State) : s.resetNext.io = s.io := rfl
@[simp] theorem State.resetNext_freeCount (s : State) : s.resetNext.freeCount = s.freeCount := rfl

/-! ### `State.endInstr` -/

@[simp] theorem State.endInstr_gpr (s : State) : s.endInstr.gpr = s.gpr := rfl
@[simp] theorem State.endInstr_seg (s : State) : s.endInstr.seg = s.seg := rfl
@[simp] theorem State.endInstr_ip (s : State) : s.endInstr.ip = s.ip := rfl
@[simp] theorem State.endInstr_flags (s : State) : s.endInstr.flags = s.flags := rfl
@[simp] theorem State.endInstr_mem (s : State) : s.endInstr.mem = s.mem := rfl
@[simp] theorem State.endInstr_halted (s : State) : s.endInstr.halted = s.halted := rfl
@[simp] theorem State.endInstr_intInhibit (s : State) : s.endInstr.intInhibit = s.intInhibit := rfl
@[simp] theorem State.endInstr_nmiPending (s : State) : s.endInstr.nmiPending = s.nmiPending := rfl
@[simp] theorem State.endInstr_tfAtStart (s : State) : s.endInstr.tfAtStart = s.tfAtStart := rfl
@[simp] theorem State.endInstr_waiting (s : State) : s.endInstr.waiting = s.waiting := rfl
@[simp] theorem State.endInstr_justReset (s : State) : s.endInstr.justReset = (s.justReset && s.waiting) := rfl
@[simp] theorem State.endInstr_startIp (s : State) : s.endInstr.startIp = s.startIp := rfl
@[simp] theorem State.endInstr_pfx (s : State) : s.endInstr.pfx = { PrefixState.none with lock := s.pfx.lock && s.waiting } := rfl
@[simp] theorem State.endInstr_staleCode (s : State) : s.endInstr.staleCode = s.staleCode := rfl
@[simp] theorem State.endInstr_inputs (s : State) : s.endInstr.inputs = s.inputs := rfl
@[simp] theorem State.endInstr_testLevel (s : State) : s.endInstr.testLevel = s.testLevel := rfl
@[simp] theorem State.endInstr_portIn (s : State) : s.endInstr.portIn = s.portIn := rfl
@[simp] theorem State.endInstr_io (s : State) : s.endInstr.io = s.io := rfl
@[simp] theorem State.endInstr_freeCount (s : State) : s.endInstr.freeCount = s.freeCount := rfl

/-! ### `State.resetSequence` -/

@[simp] theorem State.resetSequence_seg (s : State) : s.resetSequence.seg = ⟨0, Config.resetCs, 0, 0⟩ := rfl
@[simp] theorem State.resetSequence_ip (s : State) : s.resetSequence.ip = Config.resetIp := rfl
@[simp] theorem State.resetSequence_flags (s : State) : s.resetSequence.flags = ⟨false, false, false, false, false, false, false, false, false⟩ := rfl
@[simp] theorem State.resetSequence_mem (s : State) : s.resetSequence.mem = s.mem := rfl
@[simp] theorem State.resetSequence_halted (s : State) : s.resetSequence.halted = false := rfl
@[simp] theorem State.resetSequence_intInhibit (s : State) : s.resetSequence.intInhibit = false := rfl
@[simp] theorem State.resetSequence_nmiPending (s : State) : s.resetSequence.nmiPending = false := rfl
@[simp] theorem State.resetSequence_tfAtStart (s : State) : s.resetSequence.tfAtStart = false := rfl
@[simp] theorem State.resetSequence_waiting (s : State) : s.resetSequence.waiting = false := rfl
@[simp] theorem State.resetSequence_justReset (s : State) : s.resetSequence.justReset = true := rfl
@[simp] theorem State.resetSequence_startIp (s : State) : s.resetSequence.startIp = 0 := rfl
@[simp] theorem State.resetSequence_pfx (s : State) : s.resetSequence.pfx = PrefixState.none := rfl
@[simp] theorem State.resetSequence_staleCode (s : State) : s.resetSequence.staleCode = [] := rfl
@[simp] theorem State.resetSequence_inputs (s : State) : s.resetSequence.inputs = s.inputs := rfl
@[simp] theorem State.resetSequence_testLevel (s : State) : s.resetSequence.testLevel = s.testLevel := rfl
@[simp] theorem State.resetSequence_portIn (s : State) : s.resetSequence.portIn = s.portIn := rfl
@[simp] theorem State.resetSequence_io (s : State) : s.resetSequence.io = s.io := rfl
@[simp] theorem State.resetSequence_freeCount (s : State) : s.resetSequence.freeCount = s.freeCount + 8 := rfl

/-! ### `State.beginInstr` -/

@[simp] theorem State.beginInstr_gpr (s : State) : s.beginInstr.gpr = s.gpr := rfl
@[simp] theorem State.beginInstr_seg (s : State) : s.beginInstr.seg = s.seg := rfl
@[simp] theorem State.beginInstr_ip (s : State) : s.beginInstr.ip = s.ip := rfl
@[simp] theorem State.beginInstr_flags (s : State) : s.beginInstr.flags = s.flags := rfl
@[simp] theorem State.beginInstr_mem (s : State) : s.beginInstr.mem = s.mem := rfl
@[simp] theorem State.beginInstr_halted (s : State) : s.beginInstr.halted = s.halted := rfl
@[simp] theorem State.beginInstr_intInhibit (s : State) : s.beginInstr.intInhibit = false := rfl
@[simp] theorem State.beginInstr_nmiPending (s : State) : s.beginInstr.nmiPending = s.nmiPending := rfl
@[simp] theorem State.beginInstr_tfAtStart (s : State) : s.beginInstr.tfAtStart = s.flags.tf := rfl
@[simp] theorem State.beginInstr_waiting (s : State) : s.beginInstr.waiting = false := rfl
@[simp] theorem State.beginInstr_justReset (s : State) : s.beginInstr.justReset = s.justReset := rfl
@[simp] theorem State.beginInstr_startIp (s : State) : s.beginInstr.startIp = s.ip := rfl
@[simp] theorem State.beginInstr_pfx (s : State) : s.beginInstr.pfx = PrefixState.none := rfl
@[simp] theorem State.beginInstr_staleCode (s : State) : s.beginInstr.staleCode = s.staleCode := rfl
@[simp] theorem State.beginInstr_inputs (s : State) : s.beginInstr.inputs = s.inputs := rfl
@[simp] theorem State.beginInstr_testLevel (s : State) : s.beginInstr.testLevel = s.testLevel := rfl
@[simp] theorem State.beginInstr_portIn (s : State) : s.beginInstr.portIn = s.portIn := rfl
@[simp] theorem State.beginInstr_io (s : State) : s.beginInstr.io = s.io := rfl
@[simp] theorem State.beginInstr_freeCount (s : State) : s.beginInstr.freeCount = s.freeCount := rfl

/-! ### `State.idle` -/

@[simp] theorem State.idle_gpr (s : State) : s.idle.gpr = s.gpr := rfl
@[simp] theorem State.idle_seg (s : State) : s.idle.seg = s.seg := rfl
@[simp] theorem State.idle_ip (s : State) : s.idle.ip = s.ip := rfl
@[simp] theorem State.idle_flags (s : State) : s.idle.flags = s.flags := rfl
@[simp] theorem State.idle_mem (s : State) : s.idle.mem = s.mem := rfl
@[simp] theorem State.idle_halted (s : State) : s.idle.halted = s.halted := rfl
@[simp] theorem State.idle_intInhibit (s : State) : s.idle.intInhibit = false := rfl
@[simp] theorem State.idle_nmiPending (s : State) : s.idle.nmiPending = s.nmiPending := rfl
@[simp] theorem State.idle_tfAtStart (s : State) : s.idle.tfAtStart = false := rfl
@[simp] theorem State.idle_waiting (s : State) : s.idle.waiting = false := rfl
@[simp] theorem State.idle_justReset (s : State) : s.idle.justReset = s.justReset := rfl
@[simp] theorem State.idle_startIp (s : State) : s.idle.startIp = s.startIp := rfl
@[simp] theorem State.idle_pfx (s : State) : s.idle.pfx = PrefixState.none := rfl
@[simp] theorem State.idle_staleCode (s : State) : s.idle.staleCode = s.staleCode := rfl
@[simp] theorem State.idle_inputs (s : State) : s.idle.inputs = s.inputs := rfl
@[simp] theorem State.idle_testLevel (s : State) : s.idle.testLevel = s.testLevel := rfl
@[simp] theorem State.idle_portIn (s : State) : s.idle.portIn = s.portIn := rfl
@[simp] theorem State.idle_io (s : State) : s.idle.io = s.io := rfl
@[simp] theorem State.idle_freeCount (s : State) : s.idle.freeCount = s.freeCount := rfl

/-! ### `State.write` -/

@[simp] theorem State.write_seg (s : State) (w : Width) (p : Place) (v : BitVec w.bits) :
    (s.write w p v).seg = s.seg := by cases w <;> cases p <;> rfl
@[simp] theorem State.write_ip (s : State) (w : Width) (p : Place) (v : BitVec w.bits) :
    (s.write w p v).ip = s.ip := by cases w <;> cases p <;> rfl
@[simp] theorem State.write_flags (s : State) (w : Width) (p : Place) (v : BitVec w.bits) :
    (s.write w p v).flags = s.flags := by cases w <;> cases p <;> rfl
@[simp] theorem State.write_halted (s : State) (w : Width) (p : Place) (v : BitVec w.bits) :
    (s.write w p v).halted = s.halted := by cases w <;> cases p <;> rfl
@[simp] theorem State.write_intInhibit (s : State) (w : Width) (p : Place) (v : BitVec w.bits) :
    (s.write w p v).intInhibit = s.intInhibit := by cases w <;> cases p <;> rfl
@[simp] theorem State.write_nmiPending (s : State) (w : Width) (p : Place) (v : BitVec w.bits) :
    (s.write w p v).nmiPending = s.nmiPending := by cases w <;> cases p <;> rfl
@[simp] theorem State.write_tfAtStart (s : State) (w : Width) (p : Place) (v : BitVec w.bits) :
    (s.write w p v).tfAtStart = s.tfAtStart := by cases w <;> cases p <;> rfl
@[simp] theorem State.write_waiting (s : State) (w : Width) (p : Place) (v : BitVec w.bits) :
    (s.write w p v).waiting = s.waiting := by cases w <;> cases p <;> rfl
@[simp] theorem State.write_justReset (s : State) (w : Width) (p : Place) (v : BitVec w.bits) :
    (s.write w p v).justReset = s.justReset := by cases w <;> cases p <;> rfl
@[simp] theorem State.write_startIp (s : State) (w : Width) (p : Place) (v : BitVec w.bits) :
    (s.write w p v).startIp = s.startIp := by cases w <;> cases p <;> rfl
@[simp] theorem State.write_pfx (s : State) (w : Width) (p : Place) (v : BitVec w.bits) :
    (s.write w p v).pfx = s.pfx := by cases w <;> cases p <;> rfl
@[simp] theorem State.write_inputs (s : State) (w : Width) (p : Place) (v : BitVec w.bits) :
    (s.write w p v).inputs = s.inputs := by cases w <;> cases p <;> rfl
@[simp] theorem State.write_testLevel (s : State) (w : Width) (p : Place) (v : BitVec w.bits) :
    (s.write w p v).testLevel = s.testLevel := by cases w <;> cases p <;> rfl
@[simp] theorem State.write_portIn (s : State) (w : Width) (p : Place) (v : BitVec w.bits) :
    (s.write w p v).portIn = s.portIn := by cases w <;> cases p <;> rfl
@[simp] theorem State.write_io (s : State) (w : Width) (p : Place) (v : BitVec w.bits) :
    (s.write w p v).io = s.io := by cases w <;> cases p <;> rfl
@[simp] theorem State.write_freeCount (s : State) (w : Width) (p : Place) (v : BitVec w.bits) :
    (s.write w p v).freeCount = s.freeCount := by cases w <;> cases p <;> rfl

@[simp] theorem State.write_reg_mem (s : State) (w : Width) (r : RegField) (v : BitVec w.bits) :
    (s.write w (.reg r) v).mem = s.mem := by cases w <;> rfl

@[simp] theorem State.write_reg_staleCode (s : State) (w : Width) (r : RegField) (v : BitVec w.bits) :
    (s.write w (.reg r) v).staleCode = s.staleCode := by cases w <;> rfl

@[simp] theorem State.write_mem_gpr (s : State) (w : Width) (sg off : Word) (v : BitVec w.bits) :
    (s.write w (.mem sg off) v).gpr = s.gpr := by cases w <;> rfl

@[simp] theorem State.write_word_reg (s : State) (r : RegField) (v : Word) :
    s.write .word (.reg r) v = s.setReg r v := rfl

@[simp] theorem State.write_byte_reg (s : State) (r : RegField) (v : Byte) :
    s.write .byte (.reg r) v = s.setByteReg r v := rfl

@[simp] theorem State.write_word_mem (s : State) (sg off : Word) (v : Word) :
    s.write .word (.mem sg off) v = s.writeWord sg off v := rfl

@[simp] theorem State.write_byte_mem (s : State) (sg off : Word) (v : Byte) :
    s.write .byte (.mem sg off) v = s.writeByte sg off v := rfl

/-! ### The interrupt sequence -/

@[simp] theorem State.interrupt_intInhibit (s : State) (t : Byte) (ret : Word) : (s.interrupt t ret).intInhibit = s.intInhibit := rfl
@[simp] theorem State.interrupt_nmiPending (s : State) (t : Byte) (ret : Word) : (s.interrupt t ret).nmiPending = s.nmiPending := rfl
@[simp] theorem State.interrupt_tfAtStart (s : State) (t : Byte) (ret : Word) : (s.interrupt t ret).tfAtStart = s.tfAtStart := rfl
@[simp] theorem State.interrupt_waiting (s : State) (t : Byte) (ret : Word) : (s.interrupt t ret).waiting = s.waiting := rfl
@[simp] theorem State.interrupt_justReset (s : State) (t : Byte) (ret : Word) : (s.interrupt t ret).justReset = s.justReset := rfl
@[simp] theorem State.interrupt_startIp (s : State) (t : Byte) (ret : Word) : (s.interrupt t ret).startIp = s.startIp := rfl
@[simp] theorem State.interrupt_pfx (s : State) (t : Byte) (ret : Word) : (s.interrupt t ret).pfx = s.pfx := rfl
@[simp] theorem State.interrupt_inputs (s : State) (t : Byte) (ret : Word) : (s.interrupt t ret).inputs = s.inputs := rfl
@[simp] theorem State.interrupt_testLevel (s : State) (t : Byte) (ret : Word) : (s.interrupt t ret).testLevel = s.testLevel := rfl
@[simp] theorem State.interrupt_portIn (s : State) (t : Byte) (ret : Word) : (s.interrupt t ret).portIn = s.portIn := rfl
@[simp] theorem State.interrupt_io (s : State) (t : Byte) (ret : Word) : (s.interrupt t ret).io = s.io := rfl
@[simp] theorem State.interrupt_freeCount (s : State) (t : Byte) (ret : Word) : (s.interrupt t ret).freeCount = s.freeCount := rfl
@[simp] theorem State.interrupt_flags (s : State) (t : Byte) (ret : Word) :
    (s.interrupt t ret).flags = { s.flags with ifl := false, tf := false } := rfl
@[simp] theorem State.interrupt_halted (s : State) (t : Byte) (ret : Word) : (s.interrupt t ret).halted = false := rfl
@[simp] theorem State.interrupt_staleCode (s : State) (t : Byte) (ret : Word) : (s.interrupt t ret).staleCode = [] := rfl

end Sys2Proof.Machine
end

