-- ==== Sys2Proof/Laws/Memory.lean ====
section
/-! SUPPORT. What memory operations do: reading after a write, and the canonical form (20_memory.md R40, R43, R44). -/

namespace Sys2Proof.Machine

/-! ### Canonical form -/

theorem cellsFrom_mono {lo lo' : Nat} (h : lo' ≤ lo) (m : Memory) (hm : cellsFrom lo m = true) : cellsFrom lo' m = true := by
  cases m with
  | nil => rfl
  | cons c rest =>
    obtain ⟨a, b⟩ := c
    simp only [cellsFrom, Bool.and_eq_true, decide_eq_true_eq] at hm ⊢
    exact ⟨⟨⟨Nat.le_trans h hm.1.1.1, hm.1.1.2⟩, hm.1.2⟩, hm.2⟩

theorem Memory.read_below {lo : Nat} (m : Memory) (hm : cellsFrom lo m = true) (a : Nat) (ha : a < lo) :
    m.read a = unlistedByte := by
  induction m generalizing lo with
  | nil => rfl
  | cons c rest ih =>
    obtain ⟨k, v⟩ := c
    simp only [cellsFrom, Bool.and_eq_true, decide_eq_true_eq] at hm
    have hk : lo ≤ k := hm.1.1.1
    have h1 : a ≠ k := by omega
    simp only [Memory.read, h1, if_false]
    exact ih hm.2 (by omega)

theorem Memory.write_cellsFrom {lo : Nat} (m : Memory) (hm : cellsFrom lo m = true) (a : Nat) (b : Byte) (hlo : lo ≤ a)
    (ha : a < Config.memBytes) : cellsFrom lo (m.write a b) = true := by
  induction m generalizing lo with
  | nil =>
    simp only [Memory.write]
    split
    · rfl
    · simp_all [cellsFrom]
  | cons c rest ih =>
    obtain ⟨k, v⟩ := c
    have hm' := hm
    simp only [cellsFrom, Bool.and_eq_true, decide_eq_true_eq] at hm'
    obtain ⟨⟨⟨h1, h2⟩, h3⟩, h4⟩ := hm'
    simp only [Memory.write]
    split
    · split
      · exact hm
      · simp only [cellsFrom, Bool.and_eq_true, decide_eq_true_eq]
        refine ⟨⟨⟨hlo, ha⟩, by simp_all⟩, ⟨⟨by omega, h2⟩, h3⟩, h4⟩
    · split
      · subst a
        split
        · exact cellsFrom_mono (by omega) rest h4
        · simp only [cellsFrom, Bool.and_eq_true, decide_eq_true_eq]
          exact ⟨⟨⟨h1, h2⟩, by simp_all⟩, h4⟩
      · simp only [cellsFrom, Bool.and_eq_true, decide_eq_true_eq]
        exact ⟨⟨⟨h1, h2⟩, h3⟩, ih h4 (by omega)⟩

/-- A write inside the address space keeps the canonical form. -/
theorem Memory.write_wf (m : Memory) (hm : m.wf = true) (a : Nat) (b : Byte) (ha : a < Config.memBytes) :
    (m.write a b).wf = true :=
  Memory.write_cellsFrom m hm a b (Nat.zero_le a) ha

/-- Memory right after reset is canonical. -/
theorem reset_mem_wf : State.reset.mem.wf = true := rfl

/-! ### Reading after a write -/

theorem Memory.read_write_same_from {lo : Nat} (m : Memory) (hm : cellsFrom lo m = true) (a : Nat) (b : Byte) :
    (m.write a b).read a = b := by
  induction m generalizing lo with
  | nil =>
    simp only [Memory.write]
    split
    · simp_all [Memory.read]
    · simp [Memory.read]
  | cons c rest ih =>
    obtain ⟨k, v⟩ := c
    have hm' := hm
    simp only [cellsFrom, Bool.and_eq_true, decide_eq_true_eq] at hm'
    obtain ⟨⟨⟨h1, h2⟩, h3⟩, h4⟩ := hm'
    simp only [Memory.write]
    split
    · split
      · rename_i hb
        have hk : a ≠ k := by omega
        simp only [Memory.read, hk, if_false, hb]
        exact Memory.read_below rest h4 a (by omega)
      · simp [Memory.read]
    · split
      · subst a
        split
        · rename_i hb
          rw [hb]; exact Memory.read_below rest h4 k (by omega)
        · simp [Memory.read]
      · rename_i hk
        simp only [Memory.read, hk, if_false]
        exact ih h4

/-- Reading the address just written gives the byte written. -/
theorem Memory.read_write_same (m : Memory) (hm : m.wf = true) (a : Nat) (b : Byte) : (m.write a b).read a = b :=
  Memory.read_write_same_from m hm a b

/-- A write leaves every other address alone. -/
theorem Memory.read_write_other (m : Memory) (a a' : Nat) (b : Byte) (h : a' ≠ a) : (m.write a b).read a' = m.read a' := by
  induction m with
  | nil =>
    simp only [Memory.write]
    split <;> simp [Memory.read, h]
  | cons c rest ih =>
    obtain ⟨k, v⟩ := c
    simp only [Memory.write]
    split
    · split <;> simp [Memory.read, h]
    · split
      · subst a
        split <;> simp [Memory.read, h]
      · simp [Memory.read, ih]

/-! ### Physical addresses -/

theorem phys_lt (sg off : Word) : phys sg off < Config.memBytes := Nat.mod_lt _ (by decide)

/-- In one segment different offsets are different bytes. -/
theorem phys_inj {sg off off' : Word} (h : phys sg off = phys sg off') : off = off' := by
  have h1 := off.isLt
  have h2 := off'.isLt
  simp only [phys, Config.memBytes, Config.physBits, Config.segShift] at h
  apply BitVec.eq_of_toNat_eq
  omega

theorem phys_ne {sg off off' : Word} (h : off ≠ off') : phys sg off ≠ phys sg off' := fun e => h (phys_inj e)

theorem off_ne_succ (off : Word) : off ≠ off + 1 := by bv_omega

/-! ### Bytes and words in segments -/

@[simp] theorem loByte_append (a b : Byte) : loByte (a ++ b) = b := by
  unfold loByte
  apply BitVec.eq_of_getLsbD_eq
  intro i hi
  have : (a ++ b).getLsbD i = b.getLsbD i := by
    rw [BitVec.getLsbD_append]; simp [hi]
  rw [BitVec.getLsbD_extractLsb']
  simp [hi]
  exact this

@[simp] theorem hiByte_append (a b : Byte) : hiByte (a ++ b) = a := by
  unfold hiByte
  apply BitVec.eq_of_getLsbD_eq
  intro i hi
  have : (a ++ b).getLsbD (8+i) = a.getLsbD i := by
    rw [BitVec.getLsbD_append]; simp 
  rw [BitVec.getLsbD_extractLsb']
  simp only [hi, decide_true, Bool.true_and]
  exact this

@[simp] theorem hiByte_append_loByte (v : Word) : hiByte v ++ loByte v = v := by
  apply BitVec.eq_of_getLsbD_eq
  intro i hi
  have : (hiByte v ++ loByte v).getLsbD i = v.getLsbD i := by
    rw [BitVec.getLsbD_append]
    unfold hiByte loByte
    split
    · rw [BitVec.getLsbD_extractLsb']; simp [*]
    · rw [BitVec.getLsbD_extractLsb']
      have h1 : i - 8 < 8 := by omega
      have h2 : 8 + (i - 8) = i := by omega
      simp [h1, h2]
  exact this

theorem State.readByte_writeByte_same (s : State) (hs : s.mem.wf = true) (sg off : Word) (b : Byte) :
    (s.writeByte sg off b).readByte sg off = b :=
  Memory.read_write_same s.mem hs _ b

/-- A word written in a segment is read back, wherever its bytes wrap (20 R44). -/
theorem State.readWord_writeWord_same (s : State) (hs : s.mem.wf = true) (sg off v : Word) :
    (s.writeWord sg off v).readWord sg off = v := by
  have hw := Memory.write_wf s.mem hs (phys sg off) (loByte v) (phys_lt sg off)
  have h1 : (s.writeWord sg off v).readByte sg (off + 1) = hiByte v := Memory.read_write_same _ hw _ _
  have h2 : (s.writeWord sg off v).readByte sg off = loByte v := by
    show Memory.read (Memory.write _ _ _) _ = _
    rw [Memory.read_write_other _ _ _ _ (phys_ne (off_ne_succ off))]
    exact Memory.read_write_same _ hs _ _
  rw [State.readWord, h1, h2, hiByte_append_loByte]

theorem State.writeByte_sameOff (s : State) (sg off : Word) (b : Byte) :
    s.mem.SameOff (s.writeByte sg off b).mem [phys sg off] := by
  intro a ha
  exact Memory.read_write_other _ _ _ _ (by simpa using ha)

theorem State.writeWord_sameOff (s : State) (sg off v : Word) :
    s.mem.SameOff (s.writeWord sg off v).mem [phys sg off, phys sg (off + 1)] := by
  intro a ha
  simp only [List.mem_cons, List.not_mem_nil, or_false, not_or] at ha
  rw [State.writeWord_mem, Memory.read_write_other _ _ _ _ ha.2, Memory.read_write_other _ _ _ _ ha.1]

@[simp] theorem State.writeByte_wf (s : State) (hs : s.mem.wf = true) (sg off : Word) (b : Byte) :
    (s.writeByte sg off b).mem.wf = true :=
  Memory.write_wf _ hs _ _ (phys_lt sg off)

@[simp] theorem State.writeWord_wf (s : State) (hs : s.mem.wf = true) (sg off v : Word) :
    (s.writeWord sg off v).mem.wf = true :=
  Memory.write_wf _ (Memory.write_wf _ hs _ _ (phys_lt sg off)) _ _ (phys_lt sg _)

@[simp] theorem State.push_wf (s : State) (hs : s.mem.wf = true) (v : Word) : (s.push v).mem.wf = true :=
  State.writeWord_wf (s.setSp (s.gpr.sp - 2)) hs _ _ _

@[simp] theorem State.write_wf (s : State) (hs : s.mem.wf = true) (w : Width) (p : Place) (v : BitVec w.bits) :
    (s.write w p v).mem.wf = true := by
  cases w <;> cases p
  · exact hs
  · exact State.writeByte_wf s hs _ _ _
  · exact hs
  · exact State.writeWord_wf s hs _ _ _

/-! ### The prefetch window -/

@[simp] theorem State.storeByte_prefetchWindow (s : State) (a : Nat) (b : Byte) :
    (s.storeByte a b).prefetchWindow = s.prefetchWindow := rfl

theorem State.mem_storeByte_staleCode (s : State) (a x : Nat) (b : Byte) :
    x ∈ (s.storeByte a b).staleCode ↔ x ∈ s.staleCode ∨ (x = a ∧ x ∈ s.prefetchWindow) := by
  show x ∈ (if s.prefetchWindow.contains a then a :: s.staleCode else s.staleCode) ↔ _
  by_cases h : a ∈ s.prefetchWindow
  · simp only [List.contains_iff_mem, h, if_true, List.mem_cons]
    constructor
    · rintro (rfl | h')
      · exact .inr ⟨rfl, h⟩
      · exact .inl h'
    · rintro (h' | ⟨rfl, -⟩)
      · exact .inr h'
      · exact .inl rfl
  · simp only [List.contains_iff_mem, h, if_false]
    constructor
    · exact .inl
    · rintro (h' | ⟨rfl, h'⟩)
      · exact h'
      · exact absurd h' h

theorem State.writeByte_remembers (s : State) (sg off : Word) (b : Byte) :
    s.Remembers (s.writeByte sg off b) [phys sg off] := by
  intro x
  simp only [List.mem_singleton]
  exact State.mem_storeByte_staleCode s _ x b

theorem State.writeWord_remembers (s : State) (sg off v : Word) :
    s.Remembers (s.writeWord sg off v) [phys sg off, phys sg (off + 1)] := by
  intro x
  refine (State.mem_storeByte_staleCode _ _ x _).trans ?_
  show (x ∈ (s.storeByte (phys sg off) (loByte v)).staleCode ∨ _ ∧ x ∈ s.prefetchWindow) ↔ _
  rw [State.mem_storeByte_staleCode]
  simp only [List.mem_cons, List.not_mem_nil, or_false]
  tauto

/-- The remembered stores are addresses of memory. -/
theorem State.prefetchWindow_lt (s : State) (a : Nat) (h : a ∈ s.prefetchWindow) : a < Config.memBytes := by
  simp only [State.prefetchWindow, List.mem_map] at h
  obtain ⟨k, -, rfl⟩ := h
  exact phys_lt _ _

end Sys2Proof.Machine
end

