-- ==== Sys2Proof/Laws/Operands.lean ====
section
/-! SUPPORT. Registers and operands: what a write gives back and what it leaves alone (10_state.md R20, R21, R23;
30_encoding.md R62). -/

namespace Sys2Proof.Machine

/-! ### Registers -/

@[simp] theorem Gpr.get_set_same (g : Gpr) (r : RegField) (v : Word) : (g.set r v).get r = v := by cases r <;> rfl

theorem Gpr.get_set_other (g : Gpr) (r q : RegField) (v : Word) (h : q ≠ r) : (g.set r v).get q = g.get q := by
  cases r <;> cases q <;> first | rfl | exact absurd rfl h

@[simp] theorem Gpr.getByte_setByte_same (g : Gpr) (r : RegField) (v : Byte) : (g.setByte r v).getByte r = v := by
  cases r <;> simp [Gpr.setByte, Gpr.getByte]

theorem Gpr.getByte_setByte_other (g : Gpr) (r q : RegField) (v : Byte) (h : q ≠ r) :
    (g.setByte r v).getByte q = g.getByte q := by
  cases r <;> cases q <;> first | exact absurd rfl h | simp [Gpr.setByte, Gpr.getByte]

@[simp] theorem Gpr.setByte_sp (g : Gpr) (r : RegField) (v : Byte) : (g.setByte r v).sp = g.sp := by cases r <;> rfl
@[simp] theorem Gpr.setByte_bp (g : Gpr) (r : RegField) (v : Byte) : (g.setByte r v).bp = g.bp := by cases r <;> rfl
@[simp] theorem Gpr.setByte_si (g : Gpr) (r : RegField) (v : Byte) : (g.setByte r v).si = g.si := by cases r <;> rfl
@[simp] theorem Gpr.setByte_di (g : Gpr) (r : RegField) (v : Byte) : (g.setByte r v).di = g.di := by cases r <;> rfl

@[simp] theorem Gpr.get_axAl (g : Gpr) : g.get .axAl = g.ax := rfl
@[simp] theorem Gpr.get_cxCl (g : Gpr) : g.get .cxCl = g.cx := rfl
@[simp] theorem Gpr.get_dxDl (g : Gpr) : g.get .dxDl = g.dx := rfl
@[simp] theorem Gpr.get_bxBl (g : Gpr) : g.get .bxBl = g.bx := rfl
@[simp] theorem Gpr.get_spAh (g : Gpr) : g.get .spAh = g.sp := rfl
@[simp] theorem Gpr.get_bpCh (g : Gpr) : g.get .bpCh = g.bp := rfl
@[simp] theorem Gpr.get_siDh (g : Gpr) : g.get .siDh = g.si := rfl
@[simp] theorem Gpr.get_diBh (g : Gpr) : g.get .diBh = g.di := rfl

@[simp] theorem SegRegs.get_set_same (g : SegRegs) (r : SReg) (v : Word) : (g.set r v).get r = v := by cases r <;> rfl

theorem SegRegs.get_set_other (g : SegRegs) (r q : SReg) (v : Word) (h : q ≠ r) : (g.set r v).get q = g.get q := by
  cases r <;> cases q <;> first | rfl | exact absurd rfl h

/-! ### Frames compose with changes of flags and free values -/

theorem State.SameElse.refl (s : State) : s.SameElse s := rfl

theorem State.sameElse_iff (s t : State) : s.SameElse t ↔
    t.seg = s.seg ∧ t.ip = s.ip ∧ t.halted = s.halted ∧ t.intInhibit = s.intInhibit ∧ t.nmiPending = s.nmiPending ∧
      t.tfAtStart = s.tfAtStart ∧ t.waiting = s.waiting ∧ t.justReset = s.justReset ∧ t.startIp = s.startIp ∧ t.pfx = s.pfx ∧
      t.inputs = s.inputs ∧ t.testLevel = s.testLevel ∧ t.portIn = s.portIn ∧ t.io = s.io := by
  constructor
  · intro h
    rw [State.SameElse] at h
    rw [h]
    exact ⟨rfl, rfl, rfl, rfl, rfl, rfl, rfl, rfl, rfl, rfl, rfl, rfl, rfl, rfl⟩
  · intro h
    obtain ⟨g1, g2, g3, g4, g5, g6, g7, g8, g9, g10, g11, g12, g13, g14⟩ := h
    cases t
    simp only at g1 g2 g3 g4 g5 g6 g7 g8 g9 g10 g11 g12 g13 g14
    subst g1 g2 g3 g4 g5 g6 g7 g8 g9 g10 g11 g12 g13 g14
    rfl

theorem State.SameElse.trans {s t u : State} (h : s.SameElse t) (k : t.SameElse u) : s.SameElse u := by
  rw [State.sameElse_iff] at *
  simp_all

theorem State.write_sameElse (s : State) (w : Width) (p : Place) (v : BitVec w.bits) : s.SameElse (s.write w p v) := by
  rw [State.sameElse_iff]; simp

theorem Memory.SameOff.refl (m : Memory) (l : List Nat) : m.SameOff m l := fun _ _ => rfl

theorem Memory.SameOff.trans {m m' m'' : Memory} {l l' : List Nat} (h : m.SameOff m' l) (k : m'.SameOff m'' l') :
    m.SameOff m'' (l ++ l') := by
  intro a ha
  rw [List.mem_append, not_or] at ha
  rw [k a ha.2, h a ha.1]

/-! ### Writing an operand -/

theorem State.read_write_same (s : State) (hs : s.mem.wf = true) (w : Width) (p : Place) (v : BitVec w.bits) :
    (s.write w p v).read w p = v := by
  cases w <;> cases p
  · simp [State.read]
  · exact State.readByte_writeByte_same s hs _ _ _
  · simp [State.read]
  · exact State.readWord_writeWord_same s hs _ _ _

theorem State.write_sameBut (s : State) (w : Width) (p : Place) (v : BitVec w.bits) :
    s.gpr.SameBut (s.write w p v).gpr w p := by
  cases w <;> cases p
  · exact ⟨fun q h => Gpr.getByte_setByte_other _ _ _ _ h, by simp, by simp, by simp, by simp⟩
  · rfl
  · exact fun q h => Gpr.get_set_other _ _ _ _ h
  · rfl

theorem State.write_sameOff (s : State) (w : Width) (p : Place) (v : BitVec w.bits) :
    s.mem.SameOff (s.write w p v).mem (p.bytes w) := by
  cases w <;> cases p
  · exact Memory.SameOff.refl _ _
  · exact State.writeByte_sameOff s _ _ _
  · exact Memory.SameOff.refl _ _
  · exact State.writeWord_sameOff s _ _ _

theorem State.write_remembers (s : State) (w : Width) (p : Place) (v : BitVec w.bits) :
    s.Remembers (s.write w p v) (p.bytes w) := by
  cases w <;> cases p
  · intro a; simp [Place.bytes]
  · exact State.writeByte_remembers s _ _ _
  · intro a; simp [Place.bytes]
  · exact State.writeWord_remembers s _ _ _

/-- All that writing one operand does. -/
theorem State.write_wrote (s : State) (hs : s.mem.wf = true) (w : Width) (p : Place) (v : BitVec w.bits) :
    s.Wrote (s.write w p v) w p v :=
  ⟨s.read_write_same hs w p v, s.write_sameBut w p v, s.write_sameOff w p v, s.write_remembers w p v,
    s.write_sameElse w p v⟩

/-- Changing flags and drawing free values before the write changes nothing of what the write does. -/
theorem State.Wrote.of_flags {s s' t : State} {w : Width} {p : Place} {v : BitVec w.bits} (h : s'.Wrote t w p v)
    (hg : s'.gpr = s.gpr) (hm : s'.mem = s.mem) (hc : s'.staleCode = s.staleCode) (he : s.SameElse s') :
    s.Wrote t w p v := by
  have he' := (State.sameElse_iff s s').1 he
  refine ⟨h.value, hg ▸ h.regs, hm ▸ h.memory, ?_, he.trans h.rest⟩
  intro a
  have hw : s'.prefetchWindow = s.prefetchWindow := by
    simp only [State.prefetchWindow, he'.1, he'.2.1]
  have := h.code a
  rw [hc, hw] at this
  exact this

/-- A two-operand operation that writes back. -/
theorem State.binary_wrote (s : State) (hs : s.mem.wf = true) (op : BinOp) (w : Width) (p : Place) (b : BitVec w.bits)
    (hop : op.writesBack = true) :
    s.Wrote (s.binary op w p b) w p (op.eval (s.read w p) b s.flags s.freeFlags).1 := by
  simp only [State.binary, hop, if_true]
  refine State.Wrote.of_flags (State.write_wrote _ ?_ _ _ _) ?_ ?_ ?_ ?_
  · split <;> exact hs
  · split <;> rfl
  · split <;> rfl
  · split <;> rfl
  · rw [State.sameElse_iff]; split <;> simp

theorem State.binary_flags (s : State) (op : BinOp) (w : Width) (p : Place) (b : BitVec w.bits) :
    (s.binary op w p b).flags = (op.eval (s.read w p) b s.flags s.freeFlags).2 := by
  simp only [State.binary]
  split <;> simp

/-- A two-operand operation that writes no operand changes flags and free values only. -/
theorem State.binary_noWrite (s : State) (op : BinOp) (w : Width) (p : Place) (b : BitVec w.bits)
    (hop : op.writesBack = false) :
    s.binary op w p b =
      { s with
        flags := (op.eval (s.read w p) b s.flags s.freeFlags).2
        freeCount := if op.draws then s.freeCount + 1 else s.freeCount } := by
  simp only [State.binary, hop]
  cases h : op.draws <;> rfl

theorem State.binary_freeCount (s : State) (op : BinOp) (w : Width) (p : Place) (b : BitVec w.bits) :
    (s.binary op w p b).freeCount = if op.draws then s.freeCount + 1 else s.freeCount := by
  simp only [State.binary]
  cases op.draws <;> cases op.writesBack <;> simp

/-- INC and DEC. -/
theorem State.incDec_wrote (s : State) (hs : s.mem.wf = true) (up : Bool) (w : Width) (p : Place) :
    s.Wrote (s.incDec up w p) w p (if up then addN (s.read w p) 1 false else subN (s.read w p) 1 false).res := by
  refine State.Wrote.of_flags (State.write_wrote _ ?_ _ _ _) rfl rfl rfl ?_
  · exact hs
  · rw [State.sameElse_iff]; simp

/-- A shift or rotate with a count other than 0. -/
theorem State.shift_wrote (s : State) (hs : s.mem.wf = true) (op : ShiftOp) (v : CountSel) (w : Width) (rm : RM)
    (hv : s.shiftCount v ≠ 0) :
    s.Wrote (s.shift op v w rm) w (s.place rm)
      (op.times (s.shiftCount v) (s.read w (s.place rm)) s.flags.cf).1 := by
  simp only [State.shift, hv, if_false]
  refine State.Wrote.of_flags (State.write_wrote _ ?_ _ _ _) rfl rfl rfl ?_
  · exact hs
  · rw [State.sameElse_iff]; simp

theorem State.shift_flags (s : State) (op : ShiftOp) (v : CountSel) (w : Width) (rm : RM) (hv : s.shiftCount v ≠ 0) :
    (s.shift op v w rm).flags =
      op.flags (s.shiftCount v) (s.read w (s.place rm))
        (op.times (s.shiftCount v) (s.read w (s.place rm)) s.flags.cf).1
        (op.times (s.shiftCount v) (s.read w (s.place rm)) s.flags.cf).2 s.flags s.freeFlags := by
  simp only [State.shift, hv, if_false, State.write_flags, State.setFlags_flags]

theorem State.shift_zero (s : State) (op : ShiftOp) (v : CountSel) (w : Width) (rm : RM) (hv : s.shiftCount v = 0) :
    s.shift op v w rm = s := by
  simp only [State.shift, hv, if_true]

/-! ### The canonical form of memory is kept by every shared operation -/

@[simp] theorem State.binary_wf (s : State) (hs : s.mem.wf = true) (op : BinOp) (w : Width) (p : Place)
    (b : BitVec w.bits) : (s.binary op w p b).mem.wf = true := by
  simp only [State.binary]
  cases op.draws <;> cases op.writesBack <;> simp [hs]

@[simp] theorem State.binaryRmReg_wf (s : State) (hs : s.mem.wf = true) (op : BinOp) (d : Dir) (w : Width)
    (reg : RegField) (rm : RM) : (s.binaryRmReg op d w reg rm).mem.wf = true := by
  cases d <;> exact s.binary_wf hs _ _ _ _

@[simp] theorem State.binaryRmImm_wf (s : State) (hs : s.mem.wf = true) (op : BinOp) (rm : RM) (imm : Imm) :
    (s.binaryRmImm op rm imm).mem.wf = true := s.binary_wf hs _ _ _ _

@[simp] theorem State.binaryRmSwImm_wf (s : State) (hs : s.mem.wf = true) (op : BinOp) (rm : RM) (imm : SwImm) :
    (s.binaryRmSwImm op rm imm).mem.wf = true := s.binary_wf hs _ _ _ _

@[simp] theorem State.binaryAccImm_wf (s : State) (hs : s.mem.wf = true) (op : BinOp) (imm : Imm) :
    (s.binaryAccImm op imm).mem.wf = true := s.binary_wf hs _ _ _ _

@[simp] theorem State.incDec_wf (s : State) (hs : s.mem.wf = true) (up : Bool) (w : Width) (p : Place) :
    (s.incDec up w p).mem.wf = true := by
  simp only [State.incDec]
  refine State.write_wf _ ?_ _ _ _
  exact hs

@[simp] theorem State.shift_wf (s : State) (hs : s.mem.wf = true) (op : ShiftOp) (v : CountSel) (w : Width) (rm : RM) :
    (s.shift op v w rm).mem.wf = true := by
  simp only [State.shift]
  split
  · exact hs
  · refine State.write_wf _ ?_ _ _ _
    exact hs

theorem State.interrupt_mem (s : State) (t : Byte) (ret : Word) :
    (s.interrupt t ret).mem = (((s.push s.flags.image).push s.seg.cs).push ret).mem := rfl

@[simp] theorem State.interrupt_wf (s : State) (hs : s.mem.wf = true) (t : Byte) (ret : Word) :
    (s.interrupt t ret).mem.wf = true := by
  rw [State.interrupt_mem]
  exact State.push_wf _ (State.push_wf _ (State.push_wf s hs _) _) _

@[simp] theorem State.divideFails_wf (s : State) (hs : s.mem.wf = true) (w : Width) :
    (s.divideFails w).mem.wf = true := by
  cases w <;> simp only [State.divideFails, State.divideError] <;> refine State.interrupt_wf _ ?_ _ _ <;> exact hs

@[simp] theorem State.inPort_mem (s : State) (port : Word) (w : Width) : (s.inPort port w).mem = s.mem := by
  cases w <;> simp only [State.inPort, State.portTaken] <;> (repeat' split) <;> rfl

@[simp] theorem State.jumpIf_mem (s : State) (c : Bool) (d : Byte) : (s.jumpIf c d).mem = s.mem := by
  cases c <;> rfl

end Sys2Proof.Machine
end

