-- ==== Sys2Proof/Laws/Boundary.lean ====
section
/-! SUPPORT. What the writes of other agents, the bytes RESET leaves open, and the boundary do to memory (20_memory.md R51,
R53; 70_reset_and_hazards.md R260). -/

namespace Sys2Proof.Machine

/-! ### The writes of other agents -/

/-- All that a list of byte stores does. -/
theorem State.foldl_storeByte (ws : List Host.Cell) (s : State) :
    ∃ m l, ws.foldl (fun t c => t.storeByte (c.1 % Config.memBytes) c.2) s = { s with mem := m, staleCode := l } ∧
      s.mem.SameOff m (ws.map fun c => c.1 % Config.memBytes) ∧ (s.mem.wf = true → m.wf = true) ∧
      ∀ a, a ∈ l ↔ a ∈ s.staleCode ∨ (a ∈ ws.map (fun c => c.1 % Config.memBytes) ∧ a ∈ s.prefetchWindow) := by
  induction ws generalizing s with
  | nil => exact ⟨s.mem, s.staleCode, rfl, Memory.SameOff.refl _ _, id, by simp⟩
  | cons c rest ih =>
    obtain ⟨m, l, h, hm, hw, hl⟩ := ih (s.storeByte (c.1 % Config.memBytes) c.2)
    refine ⟨m, l, h, ?_, ?_, ?_⟩
    · intro a ha
      rw [List.map_cons, List.mem_cons, not_or] at ha
      rw [hm a ha.2]
      exact Memory.read_write_other _ _ _ _ ha.1
    · intro hs
      exact hw (Memory.write_wf _ hs _ _ (Nat.mod_lt _ (by decide)))
    · intro a
      rw [hl a, State.mem_storeByte_staleCode, State.storeByte_prefetchWindow, List.map_cons, List.mem_cons]
      tauto

/-- Other agents change memory and the record of stores only (20 R51). -/
theorem State.agentsWrite_eq (s : State) :
    s.agentsWrite = { s with mem := s.agentsWrite.mem, staleCode := s.agentsWrite.staleCode } := by
  obtain ⟨m, l, h, -⟩ := State.foldl_storeByte s.input.writes s
  rw [State.agentsWrite, h]

theorem State.agentsWrite_sameOff (s : State) :
    s.mem.SameOff s.agentsWrite.mem (s.input.writes.map fun c => c.1 % Config.memBytes) := by
  obtain ⟨m, l, h, hm, -⟩ := State.foldl_storeByte s.input.writes s
  rw [State.agentsWrite, h]
  exact hm

@[simp] theorem State.agentsWrite_wf (s : State) (hs : s.mem.wf = true) : s.agentsWrite.mem.wf = true := by
  obtain ⟨m, l, h, -, hw, -⟩ := State.foldl_storeByte s.input.writes s
  rw [State.agentsWrite, h]
  exact hw hs

theorem State.agentsWrite_remembers (s : State) :
    s.Remembers s.agentsWrite (s.input.writes.map fun c => c.1 % Config.memBytes) := by
  obtain ⟨m, l, h, -, -, hl⟩ := State.foldl_storeByte s.input.writes s
  rw [State.agentsWrite, h]
  exact hl

theorem State.agentsWrite_nil (s : State) (h : s.input.writes = []) : s.agentsWrite = s := by
  rw [State.agentsWrite, h, List.foldl_nil]

/-! ### The boundary -/

/-- Once the host's records are used up it asks for nothing, and TEST stays at the level it is left at (log 6). -/
theorem State.input_usedUp (s : State) (h : s.inputs = []) : s.input = ⟨.inactive, false, none, s.testLevel, []⟩ := by
  rw [State.input, h]
  rfl

@[simp] theorem State.pastBoundary_wf (s : State) (hs : s.mem.wf = true) : s.pastBoundary.mem.wf = true := by
  rw [State.pastBoundary_mem]
  split
  · exact hs
  · exact s.agentsWrite_wf hs

/-- Under LOCK the boundary lets no write of another agent land (20 R53, 45 R220). -/
theorem State.pastBoundary_locked (s : State) (h : s.pfx.lock = true) :
    s.pastBoundary = { s with inputs := s.heldInputs, nmiPending := s.nmiNow } := by
  simp only [State.pastBoundary, h, if_true]

/-- An instruction that is over has no prefix left (45 R220, R221). -/
theorem State.endInstr_of_over (s : State) (h : s.waiting = false) :
    s.endInstr = { s with pfx := PrefixState.none, justReset := false } := by
  simp only [State.endInstr, h, Bool.and_false]
  rfl

/-- A WAIT that has to look again keeps LOCK and is no completed instruction (45 R218, R220; log 11). -/
theorem State.endInstr_of_waiting (s : State) (h : s.waiting = true) :
    s.endInstr = { s with pfx := { PrefixState.none with lock := s.pfx.lock } } := by
  simp only [State.endInstr, h, Bool.and_true]

/-- Where nothing but the processor writes memory, the boundary only uses the record up and latches the NMI edge. -/
theorem State.pastBoundary_alone (s : State) (h : s.input.writes = []) :
    s.pastBoundary = { s with inputs := s.inputs.tail, nmiPending := s.nmiNow } := by
  have hh : s.heldInputs = s.inputs.tail := by rw [State.heldInputs, h]
  rw [State.pastBoundary, s.agentsWrite_nil h, hh]
  cases s.pfx.lock <;> rfl

/-! ### Bytes left open -/

/-- All that leaving bytes open does: memory changes at those bytes, and one free value is drawn for each (70 R260). -/
theorem State.scramble_spec (l : List Nat) (s : State) :
    ∃ m c, s.scramble l = { s with mem := m, staleCode := c, freeCount := s.freeCount + l.length } ∧ s.mem.SameOff m l ∧
      ((∀ a ∈ l, a < Config.memBytes) → s.mem.wf = true → m.wf = true) ∧
      ∀ a, a ∈ c ↔ a ∈ s.staleCode ∨ (a ∈ l ∧ a ∈ s.prefetchWindow) := by
  induction l generalizing s with
  | nil => exact ⟨s.mem, s.staleCode, rfl, Memory.SameOff.refl _ _, fun _ => id, by simp⟩
  | cons b rest ih =>
    obtain ⟨m, c, h, hm, hw, hc⟩ := ih (s.drawn.storeByte b (loByte s.freeValue))
    refine ⟨m, c, ?_, ?_, ?_, ?_⟩
    · have e : s.scramble (b :: rest) = (s.drawn.storeByte b (loByte s.freeValue)).scramble rest := rfl
      rw [e, h]
      simp only [State.storeByte_freeCount, State.drawn_freeCount, List.length_cons, Nat.add_comm, Nat.add_left_comm]
      rfl
    · intro a ha
      rw [List.mem_cons, not_or] at ha
      rw [hm a ha.2]
      exact Memory.read_write_other _ _ _ _ ha.1
    · intro hl hs
      exact hw (fun a ha => hl a (List.mem_cons_of_mem _ ha))
        (Memory.write_wf _ hs _ _ (hl b (List.mem_cons_self ..)))
    · intro a
      have hp : (s.drawn.storeByte b (loByte s.freeValue)).prefetchWindow = s.prefetchWindow := rfl
      have hq : s.drawn.prefetchWindow = s.prefetchWindow := rfl
      rw [hc a, State.mem_storeByte_staleCode, hp, hq, State.drawn_staleCode, List.mem_cons]
      tauto

theorem State.pushBytes_lt (s : State) (n : Nat) : ∀ a ∈ s.pushBytes n, a < Config.memBytes := by
  intro a ha
  simp only [State.pushBytes, List.mem_map] at ha
  obtain ⟨k, -, rfl⟩ := ha
  exact phys_lt _ _

theorem Place.bytes_lt (w : Width) (p : Place) : ∀ a ∈ p.bytes w, a < Config.memBytes := by
  intro a ha
  cases p with
  | reg r => simp [Place.bytes] at ha
  | mem sg off =>
    cases w <;> simp only [Place.bytes, List.mem_cons, List.not_mem_nil, or_false] at ha
    · exact ha ▸ phys_lt _ _
    · rcases ha with rfl | rfl <;> exact phys_lt _ _

theorem State.scramble_wf (s : State) (l : List Nat) (hl : ∀ a ∈ l, a < Config.memBytes) (hs : s.mem.wf = true) :
    (s.scramble l).mem.wf = true := by
  obtain ⟨m, c, h, -, hw, -⟩ := State.scramble_spec l s
  rw [h]
  exact hw hl hs

/-! ### The bytes an instruction stores to -/

theorem State.rmrBytes_lt (s : State) (d : Dir) (w : Width) (rm : RM) : ∀ a ∈ s.rmrBytes d w rm, a < Config.memBytes := by
  cases d
  · exact Place.bytes_lt _ _
  · simp [State.rmrBytes]

theorem State.elementBytes_lt (s : State) (w : Width) : ∀ a ∈ s.elementBytes w, a < Config.memBytes := by
  unfold State.elementBytes
  split
  · simp
  · exact Place.bytes_lt _ _

/-- They are addresses of memory. -/
theorem storesOf_lt (i : Instr) (s : State) : ∀ a ∈ storesOf i s, a < Config.memBytes := by
  unfold storesOf
  split <;> try split
  all_goals first
    | exact State.rmrBytes_lt _ _ _ _
    | exact Place.bytes_lt _ _
    | exact State.pushBytes_lt _ _
    | exact State.elementBytes_lt _ _
    | (intro a ha; exact absurd ha List.not_mem_nil)

/-! ### RESET -/

/-- A reset changes memory only where other agents write it meanwhile. -/
theorem State.takeReset_mem (s : State) :
    s.takeReset.mem = ({ s with pfx := PrefixState.none } : State).agentsWrite.mem := rfl

@[simp] theorem State.takeReset_wf (s : State) (hs : s.mem.wf = true) : s.takeReset.mem.wf = true :=
  State.agentsWrite_wf { s with pfx := PrefixState.none } hs

/-- An aborted instruction leaves memory canonical, whatever the bytes left open hold. -/
theorem State.abort_wf (s t : State) (l : List Nat) (hl : ∀ a ∈ l, a < Config.memBytes) (hs : s.mem.wf = true) :
    (s.abort t l).mem.wf = true :=
  State.takeReset_wf _ (s.scramble_wf l hl hs)

/-- What aborting an instruction can do: nothing else than the reset sequence, with the stored bytes left open. -/
theorem abortInstr_next {i : Instr} {s r : State} (h : abortInstr i s = .next r) :
    ∃ t, exec i { s with pfx := { s.pfx with rep := none } } = .next t ∧ r = s.abort t (storesOf i s) := by
  unfold abortInstr at h
  split at h
  · rename_i t ht
    exact ⟨t, ht, by cases h; rfl⟩
  · cases h
  · cases h

end Sys2Proof.Machine
end

