-- ==== Sys2Proof/Laws/Config.lean ====
section
/-! SUPPORT. The parameters of 00_scope.md R5 that a type of the model carries are the fields of Config: where one of them is
changed, a lemma here fails. -/

namespace Sys2Proof.Config

/-- `BYTE_BITS` (00 R5). -/
theorem byte_eq : Byte = BitVec byteBits := rfl

/-- `WORD_BITS` (00 R5). -/
theorem word_eq : Word = BitVec wordBits := rfl

/-- The operand widths (00 R7). -/
theorem width_bits : Width.byte.bits = byteBits ∧ Width.word.bits = wordBits := ⟨rfl, rfl⟩

/-- `FLAGS_BITS` and `OFFSET_BITS`: a FLAGS image and an offset are words (00 R5, 10 R25). -/
theorem word_widths : flagsBits = wordBits ∧ offsetBits = wordBits := ⟨rfl, rfl⟩

/-- Every register field, in the order of its code (10 R20, R21). -/
def allRegFields : List RegField := [.axAl, .cxCl, .dxDl, .bxBl, .spAh, .bpCh, .siDh, .diBh]

/-- `N_REG16` and `N_REG8` (00 R5). -/
theorem regFields_complete (r : RegField) : r ∈ allRegFields := by cases r <;> decide

theorem regFields_count : allRegFields.length = nReg16 ∧ allRegFields.length = nReg8 ∧ allRegFields.Nodup := by decide

/-- Every segment register, in the order of its code (10 R23). -/
def allSRegs : List SReg := [.es, .cs, .ss, .ds]

/-- `N_SREG` (00 R5). -/
theorem sregs_complete (r : SReg) : r ∈ allSRegs := by cases r <;> decide

theorem sregs_count : allSRegs.length = nSreg ∧ allSRegs.Nodup := by decide

/-- `IO_PORTS` (00 R5): a port number is a word. -/
theorem ports_are_words : ioPorts = 2 ^ wordBits := by decide

/-- `N_VECTORS` (00 R5): an interrupt type is a byte. -/
theorem vectors_are_bytes : nVectors = 2 ^ byteBits := by decide

/-- The pointer table lies inside memory (60 R232). -/
theorem vectors_in_memory : vectorBase + vectorEntryBytes * nVectors ≤ memBytes := by decide

end Sys2Proof.Config
end

