-- ==== Sys2Proof/Laws/Flags.lean ====
section
/-! SUPPORT. Flag computations: what they leave alone, and the FLAGS image bit by bit (10_state.md R25, R27). -/

namespace Sys2Proof.Machine

@[simp] theorem Flags.setSzp_of {n : Nat} (f : Flags) (r : BitVec n) : (f.setSzp r).of = f.of := rfl
@[simp] theorem Flags.setSzp_df {n : Nat} (f : Flags) (r : BitVec n) : (f.setSzp r).df = f.df := rfl
@[simp] theorem Flags.setSzp_ifl {n : Nat} (f : Flags) (r : BitVec n) : (f.setSzp r).ifl = f.ifl := rfl
@[simp] theorem Flags.setSzp_tf {n : Nat} (f : Flags) (r : BitVec n) : (f.setSzp r).tf = f.tf := rfl
@[simp] theorem Flags.setSzp_sf {n : Nat} (f : Flags) (r : BitVec n) : (f.setSzp r).sf = r.msb := rfl
@[simp] theorem Flags.setSzp_zf {n : Nat} (f : Flags) (r : BitVec n) : (f.setSzp r).zf = (r == 0) := rfl
@[simp] theorem Flags.setSzp_af {n : Nat} (f : Flags) (r : BitVec n) : (f.setSzp r).af = f.af := rfl
@[simp] theorem Flags.setSzp_pf {n : Nat} (f : Flags) (r : BitVec n) : (f.setSzp r).pf = parity8 r := rfl
@[simp] theorem Flags.setSzp_cf {n : Nat} (f : Flags) (r : BitVec n) : (f.setSzp r).cf = f.cf := rfl

/-- Bit k of the FLAGS image: the flags at their places, the X bits as `FLAGS_X_READ`. -/
theorem Flags.image_bits (f : Flags) :
    f.image.getLsbD 0 = f.cf ∧ f.image.getLsbD 1 = true ∧ f.image.getLsbD 2 = f.pf ∧ f.image.getLsbD 3 = false ∧
    f.image.getLsbD 4 = f.af ∧ f.image.getLsbD 5 = false ∧ f.image.getLsbD 6 = f.zf ∧ f.image.getLsbD 7 = f.sf ∧
    f.image.getLsbD 8 = f.tf ∧ f.image.getLsbD 9 = f.ifl ∧ f.image.getLsbD 10 = f.df ∧ f.image.getLsbD 11 = f.of ∧
    f.image.getLsbD 12 = true ∧ f.image.getLsbD 13 = true ∧ f.image.getLsbD 14 = true ∧ f.image.getLsbD 15 = true := by
  obtain ⟨a, b, c, d, e, g, h, i, j⟩ := f
  revert a b c d e g h i j
  decide

end Sys2Proof.Machine
end

