-- ==== Sys2Proof/Laws/PerInstr.lean ====
section
/-! SUPPORT. The per-instruction family `EncodedLength`: an instruction without prefixes is 1 to 6 bytes long (30_encoding.md
R60), one lemma per constructor of `Instr`. -/

namespace Sys2Proof.Laws.EncodedLength

open Sys2Proof

/-- The bytes are 1 to 6. -/
def Short (l : List Byte) : Prop := 1 ≤ l.length ∧ l.length ≤ 6

/-- Without prefixes an instruction is 1 to 6 bytes long (30 R60). -/
def Statement (i : Instr) : Prop := Short (encode i)

theorem memOp_bytes_length (reg : BitVec 3) (m : MemOp) : (m.bytes reg).length ≤ 3 := by
  cases m <;> simp [MemOp.bytes, wordBytes]

theorem rm_bytes_length (reg : BitVec 3) (rm : RM) : (rm.bytes reg).length ≤ 3 := by
  cases rm with
  | reg r => simp [RM.bytes]
  | mem m => exact memOp_bytes_length reg m

theorem imm_bytes_length (imm : Imm) : imm.bytes.length ≤ 2 := by
  cases imm <;> simp [Imm.bytes, wordBytes]

theorem swImm_bytes_length (imm : SwImm) : imm.bytes.length ≤ 2 := by
  cases imm <;> simp [SwImm.bytes, wordBytes]

theorem cons_short (b : Byte) (l : List Byte) (h : l.length ≤ 5) : Short (b :: l) :=
  ⟨Nat.succ_le_succ (Nat.zero_le _), Nat.succ_le_succ h⟩

theorem one (b : Byte) : Short [b] := cons_short _ _ (by simp)
theorem two (b c : Byte) : Short [b, c] := cons_short _ _ (by simp)
theorem wordTail (b : Byte) (v : Word) : Short (b :: wordBytes v) := cons_short _ _ (by simp [wordBytes])
theorem farTail (b : Byte) (v v' : Word) : Short (b :: wordBytes v ++ wordBytes v') := cons_short _ _ (by simp [wordBytes])
theorem rmTail (b : Byte) (reg : BitVec 3) (rm : RM) : Short (b :: rm.bytes reg) :=
  cons_short _ _ (Nat.le_trans (rm_bytes_length reg rm) (by decide))
theorem memTail (b : Byte) (reg : BitVec 3) (m : MemOp) : Short (b :: m.bytes reg) :=
  cons_short _ _ (Nat.le_trans (memOp_bytes_length reg m) (by decide))
theorem immTail (b : Byte) (imm : Imm) : Short (b :: imm.bytes) :=
  cons_short _ _ (Nat.le_trans (imm_bytes_length imm) (by decide))
theorem rmImmTail (b : Byte) (reg : BitVec 3) (rm : RM) (imm : Imm) : Short (b :: rm.bytes reg ++ imm.bytes) := by
  refine cons_short _ _ ?_
  have h1 := rm_bytes_length reg rm
  have h2 := imm_bytes_length imm
  show (rm.bytes reg ++ imm.bytes).length ≤ 5
  rw [List.length_append]; omega
theorem rmSwImmTail (b : Byte) (reg : BitVec 3) (rm : RM) (imm : SwImm) : Short (b :: rm.bytes reg ++ imm.bytes) := by
  refine cons_short _ _ ?_
  have h1 := rm_bytes_length reg rm
  have h2 := swImm_bytes_length imm
  show (rm.bytes reg ++ imm.bytes).length ≤ 5
  rw [List.length_append]; omega

theorem movRmReg (d : Dir) (w : Width) (reg : RegField) (rm : RM) : Statement (.movRmReg d w reg rm) := rmTail _ _ _
theorem movRmImm (rm : RM) (imm : Imm) : Statement (.movRmImm rm imm) := rmImmTail _ _ _ _
theorem movRegImm (reg : RegField) (imm : Imm) : Statement (.movRegImm reg imm) := immTail _ _
theorem movAccMem (w : Width) (addr : Word) : Statement (.movAccMem w addr) := wordTail _ _
theorem movMemAcc (w : Width) (addr : Word) : Statement (.movMemAcc w addr) := wordTail _ _
theorem movSregRm (sr : SReg) (rm : RM) : Statement (.movSregRm sr rm) := rmTail _ _ _
theorem movRmSreg (sr : SReg) (rm : RM) : Statement (.movRmSreg sr rm) := rmTail _ _ _
theorem pushRm (rm : RM) : Statement (.pushRm rm) := rmTail _ _ _
theorem pushReg (reg : RegField) : Statement (.pushReg reg) := one _
theorem pushSreg (sr : SReg) : Statement (.pushSreg sr) := one _
theorem popRm (rm : RM) : Statement (.popRm rm) := rmTail _ _ _
theorem popReg (reg : RegField) : Statement (.popReg reg) := one _
theorem popSreg (sr : SReg) : Statement (.popSreg sr) := one _
theorem xchgRmReg (w : Width) (reg : RegField) (rm : RM) : Statement (.xchgRmReg w reg rm) := rmTail _ _ _
theorem xchgAccReg (reg : RegField) : Statement (.xchgAccReg reg) := one _
theorem inFixed (w : Width) (port : Byte) : Statement (.inFixed w port) := two _ _
theorem inVariable (w : Width) : Statement (.inVariable w) := one _
theorem outFixed (w : Width) (port : Byte) : Statement (.outFixed w port) := two _ _
theorem outVariable (w : Width) : Statement (.outVariable w) := one _
theorem xlat : Statement (.xlat) := one _
theorem lea (reg : RegField) (m : MemOp) : Statement (.lea reg m) := memTail _ _ _
theorem lds (reg : RegField) (m : MemOp) : Statement (.lds reg m) := memTail _ _ _
theorem les (reg : RegField) (m : MemOp) : Statement (.les reg m) := memTail _ _ _
theorem lahf : Statement (.lahf) := one _
theorem sahf : Statement (.sahf) := one _
theorem pushf : Statement (.pushf) := one _
theorem popf : Statement (.popf) := one _
theorem addRmReg (d : Dir) (w : Width) (reg : RegField) (rm : RM) : Statement (.addRmReg d w reg rm) := rmTail _ _ _
theorem addRmImm (rm : RM) (imm : SwImm) : Statement (.addRmImm rm imm) := rmSwImmTail _ _ _ _
theorem addAccImm (imm : Imm) : Statement (.addAccImm imm) := immTail _ _
theorem adcRmReg (d : Dir) (w : Width) (reg : RegField) (rm : RM) : Statement (.adcRmReg d w reg rm) := rmTail _ _ _
theorem adcRmImm (rm : RM) (imm : SwImm) : Statement (.adcRmImm rm imm) := rmSwImmTail _ _ _ _
theorem adcAccImm (imm : Imm) : Statement (.adcAccImm imm) := immTail _ _
theorem incRm (w : Width) (rm : RM) : Statement (.incRm w rm) := rmTail _ _ _
theorem incReg (reg : RegField) : Statement (.incReg reg) := one _
theorem aaa : Statement (.aaa) := one _
theorem daa : Statement (.daa) := one _
theorem subRmReg (d : Dir) (w : Width) (reg : RegField) (rm : RM) : Statement (.subRmReg d w reg rm) := rmTail _ _ _
theorem subRmImm (rm : RM) (imm : SwImm) : Statement (.subRmImm rm imm) := rmSwImmTail _ _ _ _
theorem subAccImm (imm : Imm) : Statement (.subAccImm imm) := immTail _ _
theorem sbbRmReg (d : Dir) (w : Width) (reg : RegField) (rm : RM) : Statement (.sbbRmReg d w reg rm) := rmTail _ _ _
theorem sbbRmImm (rm : RM) (imm : SwImm) : Statement (.sbbRmImm rm imm) := rmSwImmTail _ _ _ _
theorem sbbAccImm (imm : Imm) : Statement (.sbbAccImm imm) := immTail _ _
theorem decRm (w : Width) (rm : RM) : Statement (.decRm w rm) := rmTail _ _ _
theorem decReg (reg : RegField) : Statement (.decReg reg) := one _
theorem neg (w : Width) (rm : RM) : Statement (.neg w rm) := rmTail _ _ _
theorem cmpRmReg (d : Dir) (w : Width) (reg : RegField) (rm : RM) : Statement (.cmpRmReg d w reg rm) := rmTail _ _ _
theorem cmpRmImm (rm : RM) (imm : SwImm) : Statement (.cmpRmImm rm imm) := rmSwImmTail _ _ _ _
theorem cmpAccImm (imm : Imm) : Statement (.cmpAccImm imm) := immTail _ _
theorem aas : Statement (.aas) := one _
theorem das : Statement (.das) := one _
theorem mul (w : Width) (rm : RM) : Statement (.mul w rm) := rmTail _ _ _
theorem imul (w : Width) (rm : RM) : Statement (.imul w rm) := rmTail _ _ _
theorem aam (base : Byte) : Statement (.aam base) := two _ _
theorem div (w : Width) (rm : RM) : Statement (.div w rm) := rmTail _ _ _
theorem idiv (w : Width) (rm : RM) : Statement (.idiv w rm) := rmTail _ _ _
theorem aad (base : Byte) : Statement (.aad base) := two _ _
theorem cbw : Statement (.cbw) := one _
theorem cwd : Statement (.cwd) := one _
theorem not (w : Width) (rm : RM) : Statement (.not w rm) := rmTail _ _ _
theorem shl (v : CountSel) (w : Width) (rm : RM) : Statement (.shl v w rm) := rmTail _ _ _
theorem shr (v : CountSel) (w : Width) (rm : RM) : Statement (.shr v w rm) := rmTail _ _ _
theorem sar (v : CountSel) (w : Width) (rm : RM) : Statement (.sar v w rm) := rmTail _ _ _
theorem rol (v : CountSel) (w : Width) (rm : RM) : Statement (.rol v w rm) := rmTail _ _ _
theorem ror (v : CountSel) (w : Width) (rm : RM) : Statement (.ror v w rm) := rmTail _ _ _
theorem rcl (v : CountSel) (w : Width) (rm : RM) : Statement (.rcl v w rm) := rmTail _ _ _
theorem rcr (v : CountSel) (w : Width) (rm : RM) : Statement (.rcr v w rm) := rmTail _ _ _
theorem andRmReg (d : Dir) (w : Width) (reg : RegField) (rm : RM) : Statement (.andRmReg d w reg rm) := rmTail _ _ _
theorem andRmImm (rm : RM) (imm : Imm) : Statement (.andRmImm rm imm) := rmImmTail _ _ _ _
theorem andAccImm (imm : Imm) : Statement (.andAccImm imm) := immTail _ _
theorem testRmReg (w : Width) (reg : RegField) (rm : RM) : Statement (.testRmReg w reg rm) := rmTail _ _ _
theorem testRmImm (rm : RM) (imm : Imm) : Statement (.testRmImm rm imm) := rmImmTail _ _ _ _
theorem testAccImm (imm : Imm) : Statement (.testAccImm imm) := immTail _ _
theorem orRmReg (d : Dir) (w : Width) (reg : RegField) (rm : RM) : Statement (.orRmReg d w reg rm) := rmTail _ _ _
theorem orRmImm (rm : RM) (imm : Imm) : Statement (.orRmImm rm imm) := rmImmTail _ _ _ _
theorem orAccImm (imm : Imm) : Statement (.orAccImm imm) := immTail _ _
theorem xorRmReg (d : Dir) (w : Width) (reg : RegField) (rm : RM) : Statement (.xorRmReg d w reg rm) := rmTail _ _ _
theorem xorRmImm (rm : RM) (imm : Imm) : Statement (.xorRmImm rm imm) := rmImmTail _ _ _ _
theorem xorAccImm (imm : Imm) : Statement (.xorAccImm imm) := immTail _ _
theorem rep (z : Bool) : Statement (.rep z) := one _
theorem movs (w : Width) : Statement (.movs w) := one _
theorem cmps (w : Width) : Statement (.cmps w) := one _
theorem scas (w : Width) : Statement (.scas w) := one _
theorem lods (w : Width) : Statement (.lods w) := one _
theorem stos (w : Width) : Statement (.stos w) := one _
theorem callRel (disp : Word) : Statement (.callRel disp) := wordTail _ _
theorem callRm (rm : RM) : Statement (.callRm rm) := rmTail _ _ _
theorem callFar (off : Word) (seg : Word) : Statement (.callFar off seg) := farTail _ _ _
theorem callFarMem (m : MemOp) : Statement (.callFarMem m) := memTail _ _ _
theorem jmpRel (disp : Word) : Statement (.jmpRel disp) := wordTail _ _
theorem jmpShort (disp : Byte) : Statement (.jmpShort disp) := two _ _
theorem jmpRm (rm : RM) : Statement (.jmpRm rm) := rmTail _ _ _
theorem jmpFar (off : Word) (seg : Word) : Statement (.jmpFar off seg) := farTail _ _ _
theorem jmpFarMem (m : MemOp) : Statement (.jmpFarMem m) := memTail _ _ _
theorem ret : Statement (.ret) := one _
theorem retImm (data : Word) : Statement (.retImm data) := wordTail _ _
theorem retFar : Statement (.retFar) := one _
theorem retFarImm (data : Word) : Statement (.retFarImm data) := wordTail _ _
theorem je (disp : Byte) : Statement (.je disp) := two _ _
theorem jl (disp : Byte) : Statement (.jl disp) := two _ _
theorem jle (disp : Byte) : Statement (.jle disp) := two _ _
theorem jb (disp : Byte) : Statement (.jb disp) := two _ _
theorem jbe (disp : Byte) : Statement (.jbe disp) := two _ _
theorem jp (disp : Byte) : Statement (.jp disp) := two _ _
theorem jo (disp : Byte) : Statement (.jo disp) := two _ _
theorem js (disp : Byte) : Statement (.js disp) := two _ _
theorem jne (disp : Byte) : Statement (.jne disp) := two _ _
theorem jnl (disp : Byte) : Statement (.jnl disp) := two _ _
theorem jnle (disp : Byte) : Statement (.jnle disp) := two _ _
theorem jnb (disp : Byte) : Statement (.jnb disp) := two _ _
theorem jnbe (disp : Byte) : Statement (.jnbe disp) := two _ _
theorem jnp (disp : Byte) : Statement (.jnp disp) := two _ _
theorem jno (disp : Byte) : Statement (.jno disp) := two _ _
theorem jns (disp : Byte) : Statement (.jns disp) := two _ _
theorem loop (disp : Byte) : Statement (.loop disp) := two _ _
theorem loopz (disp : Byte) : Statement (.loopz disp) := two _ _
theorem loopnz (disp : Byte) : Statement (.loopnz disp) := two _ _
theorem jcxz (disp : Byte) : Statement (.jcxz disp) := two _ _
theorem int (type : Byte) : Statement (.int type) := two _ _
theorem int3 : Statement (.int3) := one _
theorem into : Statement (.into) := one _
theorem iret : Statement (.iret) := one _
theorem clc : Statement (.clc) := one _
theorem cmc : Statement (.cmc) := one _
theorem stc : Statement (.stc) := one _
theorem cld : Statement (.cld) := one _
theorem std : Statement (.std) := one _
theorem cli : Statement (.cli) := one _
theorem sti : Statement (.sti) := one _
theorem hlt : Statement (.hlt) := one _
theorem wait : Statement (.wait) := one _
theorem esc (x0 : BitVec 3) (x1 : BitVec 3) (rm : RM) : Statement (.esc x0 x1 rm) := rmTail _ _ _
theorem lock : Statement (.lock) := one _
theorem seg (sr : SReg) : Statement (.seg sr) := one _

end Sys2Proof.Laws.EncodedLength
end

