-- ==== Sys2Proof/Laws/Stack.lean ====
section
/-! SUPPORT. What pushing does (20_memory.md R56) and what the interrupt sequence does (60_exceptions.md R233). -/

namespace Sys2Proof.Machine

theorem State.readWord_of_sameOff {s t : State} {l : List Nat} (h : s.mem.SameOff t.mem l) (sg off : Word)
    (h0 : phys sg off ∉ l) (h1 : phys sg (off + 1) ∉ l) : t.readWord sg off = s.readWord sg off := by
  simp only [State.readWord, State.readByte, h _ h0, h _ h1]

theorem State.Pushed.nil (s : State) : s.Pushed s [] := by
  refine ⟨?_, ?_, Memory.SameOff.refl _ _⟩
  · simp
  · intro k h; exact absurd h (Nat.not_lt_zero k)

theorem State.push_sameOff (s : State) (v : Word) :
    s.mem.SameOff (s.push v).mem [phys s.seg.ss (s.gpr.sp - 2), phys s.seg.ss (s.gpr.sp - 2 + 1)] :=
  State.writeWord_sameOff (s.setSp (s.gpr.sp - 2)) _ _ _

theorem State.push_top (s : State) (hs : s.mem.wf = true) (v : Word) :
    (s.push v).readWord s.seg.ss (s.gpr.sp - 2) = v := by
  refine State.readWord_writeWord_same (s.setSp (s.gpr.sp - 2)) ?_ _ _ _
  exact hs

/-- One more word pushed. The bound keeps the stack from running over itself. -/
theorem State.Pushed.push {s t : State} {vs : List Word} (h : s.Pushed t vs) (ht : t.mem.wf = true)
    (hss : t.seg.ss = s.seg.ss) (hl : vs.length < 1000) (v : Word) : s.Pushed (t.push v) (vs ++ [v]) := by
  have hsp := h.sp
  have hoff := State.push_sameOff t v
  refine ⟨?_, ?_, ?_⟩
  · rw [State.push_gpr, hsp]
    simp only [List.length_append, List.length_cons, List.length_nil]
    bv_omega
  · intro k hk
    simp only [List.length_append, List.length_cons, List.length_nil] at hk
    by_cases hkl : k < vs.length
    · rw [List.getElem_append_left hkl, ← h.words k hkl]
      apply State.readWord_of_sameOff hoff
      · rw [hss, hsp]
        simp only [List.mem_cons, List.not_mem_nil, or_false, not_or]
        constructor <;> apply phys_ne <;> bv_omega
      · rw [hss, hsp]
        simp only [List.mem_cons, List.not_mem_nil, or_false, not_or]
        constructor <;> apply phys_ne <;> bv_omega
    · have hke : k = vs.length := by omega
      subst hke
      have e : s.gpr.sp - BitVec.ofNat 16 (2 * (vs.length + 1)) = t.gpr.sp - 2 := by rw [hsp]; bv_omega
      rw [e, ← hss, State.push_top t ht v]
      simp
  · intro a ha
    simp only [List.length_append, List.length_cons, List.length_nil, List.mem_map, List.mem_range, not_exists,
      not_and] at ha
    rw [hoff a, h.memory a]
    · simp only [List.mem_map, List.mem_range, not_exists, not_and]
      intro k hk
      exact ha k (by omega)
    · rw [hss, hsp]
      simp only [List.mem_cons, List.not_mem_nil, or_false, not_or]
      refine ⟨fun e => ha (2 * vs.length + 1) (by omega) ?_, fun e => ha (2 * vs.length) (by omega) ?_⟩
      · rw [e]; congr 1; bv_omega
      · rw [e]; congr 1; bv_omega

theorem State.push_pushed (s : State) (hs : s.mem.wf = true) (v : Word) : s.Pushed (s.push v) [v] :=
  (State.Pushed.nil s).push hs rfl (by simp) v

theorem State.push2_pushed (s : State) (hs : s.mem.wf = true) (v v' : Word) :
    s.Pushed ((s.push v).push v') [v, v'] :=
  (State.push_pushed s hs v).push (s.push_wf hs v) rfl (by simp) v'

/-- The frame of the interrupt sequence: FLAGS, CS, the saved offset (60 R233). -/
theorem State.push3_pushed (s : State) (hs : s.mem.wf = true) (v v' v'' : Word) :
    s.Pushed (((s.push v).push v').push v'') [v, v', v''] :=
  (State.push2_pushed s hs v v').push (State.push_wf _ (s.push_wf hs v) v') rfl (by simp) v''

theorem State.Pushed.congr {s t t' : State} {vs : List Word} (h : s.Pushed t vs) (hm : t'.mem = t.mem)
    (hg : t'.gpr.sp = t.gpr.sp) : s.Pushed t' vs := by
  refine ⟨hg.trans h.sp, ?_, hm ▸ h.memory⟩
  intro k hk
  rw [← h.words k hk]
  simp only [State.readWord, State.readByte, hm]

/-- What the interrupt sequence leaves on the stack (60 R233). -/
theorem State.interrupt_pushed (s : State) (hs : s.mem.wf = true) (t : Byte) (ret : Word) :
    s.Pushed (s.interrupt t ret) [s.flags.image, s.seg.cs, ret] :=
  (State.push3_pushed s hs _ _ _).congr (State.interrupt_mem s t ret) rfl

theorem State.interrupt_ip (s : State) (t : Byte) (ret : Word) :
    (s.interrupt t ret).ip = (s.interrupt t ret).mem.readWordPhys (vectorAddr t) := rfl

theorem State.interrupt_seg (s : State) (t : Byte) (ret : Word) :
    (s.interrupt t ret).seg = { s.seg with cs := (s.interrupt t ret).mem.readWordPhys (vectorAddr t + 2) } := rfl

end Sys2Proof.Machine
end

