-- ==== Sys2Proof/Tests/Slice0.lean ====
section
/-! SUPPORT. Tests: ill-formed terms the checks refuse, a word of every row decoded, small steps, the table's numbering, and
for every statement with hypotheses a state and operands that meet them. The words come from the Encoding lines of spec/, the
expected results of the steps from the vectors of spec/95_test_vectors.md, whose ids stand above them. -/

namespace Sys2Proof.Tests

open Sys2Proof Sys2Proof.Machine

set_option Elab.async false

/-! ### WellFormed -/

/-- mod = 00 with r/m = 110 is no (BP) without displacement (30 R64). -/
theorem test_illformed_bp_noDisp : (MemOp.noDisp .bp).wellFormed = false := by decide

/-- The same inside an r/m operand and inside instructions. -/
theorem test_illformed_bp_operand :
    (Instr.movRmReg .toReg .word .axAl (.mem (.noDisp .bp))).wellFormed = false ∧
    (Instr.lea .axAl (.noDisp .bp)).wellFormed = false ∧ (Instr.esc 0 0 (.mem (.noDisp .bp))).wellFormed = false := by
  decide

/-- The second byte of AAM and AAD is 0x0A (30 R79 item 6). -/
theorem test_illformed_base : (Instr.aam 0x10).wellFormed = false ∧ (Instr.aad 0x00).wellFormed = false := by decide

/-! ### Decode -/

/-- The decoder reads the whole of the bytes as that instruction. -/
def decodesWhole (p : List Byte × Instr) : Bool :=
  match decode p.1 with
  | .ok (i, rest) => i == p.2 && rest == []
  | .error _ => false

/-- Words of the data transfer (40_data_transfer.md) instructions, one for each row. -/
def dataTransferWords : List (List Byte × Instr) :=
  ([
    ([0x89, 0xD8], .movRmReg .fromReg .word .bxBl (.reg .axAl)),
    ([0xC7, 0x06, 0x00, 0x02, 0x34, 0x12], .movRmImm (.mem (.direct 0x0200)) (.word 0x1234)),
    ([0xB4, 0x7F], .movRegImm .spAh (.byte 0x7F)),
    ([0xA1, 0x34, 0x12], .movAccMem .word 0x1234),
    ([0xA2, 0x10, 0x00], .movMemAcc .byte 0x0010),
    ([0x8E, 0xD8], .movSregRm .ds (.reg .axAl)),
    ([0x8C, 0xDB], .movRmSreg .ds (.reg .bxBl)),
    ([0xFF, 0x36, 0x00, 0x20], .pushRm (.mem (.direct 0x2000))),
    ([0x54], .pushReg .spAh),
    ([0x1E], .pushSreg .ds),
    ([0x8F, 0x06, 0x00, 0x30], .popRm (.mem (.direct 0x3000))),
    ([0x5F], .popReg .diBh),
    ([0x07], .popSreg .es),
    ([0x86, 0x07], .xchgRmReg .byte .axAl (.mem (.noDisp .bx)))] : List (List Byte × Instr)) ++
  ([
    ([0x93], .xchgAccReg .bxBl),
    ([0xE4, 0x60], .inFixed .byte 0x60),
    ([0xED], .inVariable .word),
    ([0xE7, 0x80], .outFixed .word 0x80),
    ([0xEE], .outVariable .byte),
    ([0xD7], .xlat),
    ([0x8D, 0x47, 0x04], .lea .axAl (.disp8 .bx 0x04)),
    ([0xC5, 0x1E, 0x00, 0x02], .lds .bxBl (.direct 0x0200)),
    ([0xC4, 0x3C], .les .diBh (.noDisp .si)),
    ([0x9F], .lahf),
    ([0x9E], .sahf),
    ([0x9C], .pushf),
    ([0x9D], .popf)] : List (List Byte × Instr))

theorem test_decode_dataTransfer : dataTransferWords.all decodesWhole = true := by decide +kernel

/-- Words of the arithmetic (41_arithmetic.md) instructions, one for each row. -/
def arithmeticWords : List (List Byte × Instr) :=
  ([
    ([0x02, 0x07], .addRmReg .toReg .byte .axAl (.mem (.noDisp .bx))),
    ([0x83, 0xC3, 0xFF], .addRmImm (.reg .bxBl) (.s1w1 0xFF)),
    ([0x04, 0x01], .addAccImm (.byte 0x01)),
    ([0x11, 0xD8], .adcRmReg .fromReg .word .bxBl (.reg .axAl)),
    ([0x82, 0xD1, 0x05], .adcRmImm (.reg .cxCl) (.s1w0 0x05)),
    ([0x15, 0xFF, 0x7F], .adcAccImm (.word 0x7FFF)),
    ([0xFE, 0xC0], .incRm .byte (.reg .axAl)),
    ([0x41], .incReg .cxCl),
    ([0x37], .aaa),
    ([0x27], .daa),
    ([0x2A, 0x5A, 0x10], .subRmReg .toReg .byte .bxBl (.mem (.disp8 .bpSi 0x10))),
    ([0x81, 0xEC, 0x00, 0x01], .subRmImm (.reg .spAh) (.s0w1 0x0100)),
    ([0x2D, 0x01, 0x00], .subAccImm (.word 0x0001)),
    ([0x19, 0x0B], .sbbRmReg .fromReg .word .cxCl (.mem (.noDisp .bpDi)))] : List (List Byte × Instr)) ++
  ([
    ([0x80, 0xDB, 0x01], .sbbRmImm (.reg .bxBl) (.s0w0 0x01)),
    ([0x1C, 0x0F], .sbbAccImm (.byte 0x0F)),
    ([0xFF, 0x09], .decRm .word (.mem (.noDisp .bxDi))),
    ([0x4E], .decReg .siDh),
    ([0xF6, 0xD8], .neg .byte (.reg .axAl)),
    ([0x3B, 0x85, 0x34, 0x12], .cmpRmReg .toReg .word .axAl (.mem (.disp16 .di 0x1234))),
    ([0x83, 0xFE, 0x80], .cmpRmImm (.reg .siDh) (.s1w1 0x80)),
    ([0x3D, 0x00, 0x80], .cmpAccImm (.word 0x8000)),
    ([0x3F], .aas),
    ([0x2F], .das),
    ([0xF7, 0xE3], .mul .word (.reg .bxBl)),
    ([0xF6, 0xEB], .imul .byte (.reg .bxBl)),
    ([0xD4, 0x0A], .aam 0x0A),
    ([0xF7, 0xF1], .div .word (.reg .cxCl))] : List (List Byte × Instr)) ++
  ([
    ([0xF6, 0x3C], .idiv .byte (.mem (.noDisp .si))),
    ([0xD5, 0x0A], .aad 0x0A),
    ([0x98], .cbw),
    ([0x99], .cwd)] : List (List Byte × Instr))

theorem test_decode_arithmetic : arithmeticWords.all decodesWhole = true := by decide +kernel

/-- Words of the logic (42_logic.md) instructions, one for each row. -/
def logicWords : List (List Byte × Instr) :=
  ([
    ([0xF7, 0xD0], .not .word (.reg .axAl)),
    ([0xD0, 0xE0], .shl .one .byte (.reg .axAl)),
    ([0xD3, 0xE8], .shr .cl .word (.reg .axAl)),
    ([0xD1, 0xFA], .sar .one .word (.reg .dxDl)),
    ([0xD0, 0xC0], .rol .one .byte (.reg .axAl)),
    ([0xD2, 0x0F], .ror .cl .byte (.mem (.noDisp .bx))),
    ([0xD0, 0xD0], .rcl .one .byte (.reg .axAl)),
    ([0xD3, 0xDE], .rcr .cl .word (.reg .siDh)),
    ([0x20, 0xD8], .andRmReg .fromReg .byte .bxBl (.reg .axAl)),
    ([0x81, 0xE1, 0xFF, 0x00], .andRmImm (.reg .cxCl) (.word 0x00FF)),
    ([0x24, 0x0F], .andAccImm (.byte 0x0F)),
    ([0x85, 0xC0], .testRmReg .word .axAl (.reg .axAl)),
    ([0xF6, 0xC4, 0x80], .testRmImm (.reg .spAh) (.byte 0x80)),
    ([0xA9, 0x01, 0x80], .testAccImm (.word 0x8001))] : List (List Byte × Instr)) ++
  ([
    ([0x0B, 0xC3], .orRmReg .toReg .word .axAl (.reg .bxBl)),
    ([0x80, 0x0E, 0x00, 0x02, 0x55], .orRmImm (.mem (.direct 0x0200)) (.byte 0x55)),
    ([0x0D, 0x34, 0x12], .orAccImm (.word 0x1234)),
    ([0x33, 0xC0], .xorRmReg .toReg .word .axAl (.reg .axAl)),
    ([0x81, 0xB6, 0x00, 0x01, 0xFF, 0x00], .xorRmImm (.mem (.disp16 .bp 0x0100)) (.word 0x00FF)),
    ([0x34, 0xFF], .xorAccImm (.byte 0xFF))] : List (List Byte × Instr))

theorem test_decode_logic : logicWords.all decodesWhole = true := by decide +kernel

/-- Words of the string (43_string.md) instructions, one for each row. -/
def stringsWords : List (List Byte × Instr) :=
  ([
    ([0xF2], .rep false),
    ([0xA5], .movs .word),
    ([0xA6], .cmps .byte),
    ([0xAF], .scas .word),
    ([0xAC], .lods .byte),
    ([0xAB], .stos .word)] : List (List Byte × Instr))

theorem test_decode_strings : stringsWords.all decodesWhole = true := by decide +kernel

/-- Words of the control transfer (44_control_transfer.md) instructions, one for each row. -/
def controlTransferWords : List (List Byte × Instr) :=
  ([
    ([0xE8, 0xFD, 0x00], .callRel 0x00FD),
    ([0xFF, 0xD3], .callRm (.reg .bxBl)),
    ([0x9A, 0x00, 0x02, 0x00, 0x30], .callFar 0x0200 0x3000),
    ([0xFF, 0x1E, 0x00, 0x04], .callFarMem (.direct 0x0400)),
    ([0xE9, 0x00, 0xFF], .jmpRel 0xFF00),
    ([0xEB, 0xFE], .jmpShort 0xFE),
    ([0xFF, 0x24], .jmpRm (.mem (.noDisp .si))),
    ([0xEA, 0x00, 0x00, 0x00, 0xF0], .jmpFar 0x0000 0xF000),
    ([0xFF, 0x2F], .jmpFarMem (.noDisp .bx)),
    ([0xC3], .ret),
    ([0xC2, 0x04, 0x00], .retImm 0x0004),
    ([0xCB], .retFar),
    ([0xCA, 0x02, 0x00], .retFarImm 0x0002),
    ([0x74, 0x05], .je 0x05)] : List (List Byte × Instr)) ++
  ([
    ([0x7C, 0x05], .jl 0x05),
    ([0x7E, 0x05], .jle 0x05),
    ([0x72, 0x05], .jb 0x05),
    ([0x76, 0x05], .jbe 0x05),
    ([0x7A, 0x05], .jp 0x05),
    ([0x70, 0x05], .jo 0x05),
    ([0x78, 0x05], .js 0x05),
    ([0x75, 0x05], .jne 0x05),
    ([0x7D, 0x05], .jnl 0x05),
    ([0x7F, 0x05], .jnle 0x05),
    ([0x73, 0x05], .jnb 0x05),
    ([0x77, 0x05], .jnbe 0x05),
    ([0x7B, 0x05], .jnp 0x05),
    ([0x71, 0x05], .jno 0x05)] : List (List Byte × Instr)) ++
  ([
    ([0x79, 0x05], .jns 0x05),
    ([0xE2, 0xFC], .loop 0xFC),
    ([0xE1, 0xFC], .loopz 0xFC),
    ([0xE0, 0xFC], .loopnz 0xFC),
    ([0xE3, 0x10], .jcxz 0x10),
    ([0xCD, 0x21], .int 0x21),
    ([0xCC], .int3),
    ([0xCE], .into),
    ([0xCF], .iret)] : List (List Byte × Instr))

theorem test_decode_controlTransfer : controlTransferWords.all decodesWhole = true := by decide +kernel

/-- Words of the processor control (45_processor_control.md) instructions, one for each row. -/
def processorControlWords : List (List Byte × Instr) :=
  ([
    ([0xF8], .clc),
    ([0xF5], .cmc),
    ([0xF9], .stc),
    ([0xFC], .cld),
    ([0xFD], .std),
    ([0xFA], .cli),
    ([0xFB], .sti),
    ([0xF4], .hlt),
    ([0x9B], .wait),
    ([0xDE, 0x86, 0x34, 0x12], .esc 6 0 (.mem (.disp16 .bp 0x1234))),
    ([0xF0], .lock),
    ([0x2E], .seg .cs)] : List (List Byte × Instr))

theorem test_decode_processorControl : processorControlWords.all decodesWhole = true := by decide +kernel

/-- The bytes a table word stands for: the first byte in the high digits (30 R85, log 1); the byte above the table's bits is
0. -/
theorem test_table_words :
    decodeTableWord 16 0x89D8 = some (.movRmReg .fromReg .word .bxBl (.reg .axAl)) ∧
    decodeTableWord 8 0xB0 = some (.movRegImm .axAl (.byte 0x00)) ∧
    decodeTableWord 16 0xD40A = some (.aam 0x0A) ∧ decodeTableWord 16 0xD50B = none := by decide

/-! ### Steps -/

/-- The start state of the vectors of spec/95: all registers and flags 0, CS:IP = 0000:0100, a quiet host, not at reset
(70 R264). -/
def boot : State := { State.reset with seg := ⟨0, 0, 0, 0⟩, ip := 0x0100, justReset := false }

/-- The host's next record is `h`. -/
def given (h : HostInput) (s : State) : State := { s with inputs := h :: s.inputs }

/-- A record of a host that asks for nothing but RESET, if that. -/
def record (r : ResetInput) : HostInput := { HostInput.quiet with reset := r }

/-- The bytes at a segment and offset. -/
def poke (s : State) (sg off : Word) (bs : List Byte) : State :=
  { s with mem := { s with seg := { s.seg with cs := sg }, ip := off }.placeCode 0 bs }

/-- One step over that code gives a state of which `f` holds. -/
def shows (s : State) (code : List Byte) (f : State → Bool) : Bool :=
  match step (poke s s.seg.cs s.ip code) with
  | .next t => f t
  | .fault _ => false
  | .refused _ => false

/-- Why one step over that code is refused. -/
def refusal (s : State) (code : List Byte) : Option Refusal :=
  match step (poke s s.seg.cs s.ip code) with
  | .next _ => none
  | .fault _ => none
  | .refused r => some r

/-- VT2. -/
theorem test_mov_disp8_load : shows (poke { boot with
      gpr := { boot.gpr with bx := 0x0200 }
      seg := { boot.seg with ds := 0x1000 } } 0x1000 0x0202 [0xCD, 0xAB]) [0x8B, 0x47, 0x02]
    (fun t => t.gpr.ax == 0xABCD && t.ip == 0x0103) = true := by decide +kernel

/-- VT4. -/
theorem test_mov_bp_uses_ss : shows (poke (poke { boot with
      gpr := { boot.gpr with bp := 0x0100 }
      seg := { boot.seg with ss := 0x2000, ds := 0x3000 } } 0x2000 0x00FE [0x11, 0x22]) 0x3000 0x00FE [0x33, 0x44])
    [0x8B, 0x46, 0xFE]
    (fun t => t.gpr.ax == 0x2211 && t.ip == 0x0103) = true := by decide +kernel

/-- VT6. -/
theorem test_mov_imm_to_memory : shows { boot with seg := { boot.seg with ds := 0x0050 } }
    [0xC7, 0x06, 0x00, 0x02, 0x34, 0x12]
    (fun t => t.readWord 0x0050 0x0200 == 0x1234 && t.ip == 0x0106) = true := by decide +kernel

/-- VT8. -/
theorem test_mov_imm_to_ah : shows { boot with gpr := { boot.gpr with ax := 0x1234 } } [0xB4, 0x7F]
    (fun t => t.gpr.ax == 0x7F34 && t.ip == 0x0102) = true := by decide +kernel

/-- VT10. -/
theorem test_mov_acc_word_wraps : shows (poke (poke { boot with seg := { boot.seg with ds := 0x1000 } }
    0x1000 0xFFFF [0x34]) 0x1000 0x0000 [0x12]) [0xA1, 0xFF, 0xFF]
    (fun t => t.gpr.ax == 0x1234 && t.ip == 0x0103) = true := by decide +kernel

/-- VT11. -/
theorem test_mov_to_address_zero : shows { boot with
      gpr := { boot.gpr with ax := 0xBEEF }
      seg := { boot.seg with ds := 0xFFFF } } [0xA2, 0x10, 0x00]
    (fun t => t.readByte 0x0000 0x0000 == 0xEF && t.ip == 0x0103) = true := by decide +kernel

/-- VT12. -/
theorem test_mov_ss : shows { boot with gpr := { boot.gpr with ax := 0x2000 } } [0x8E, 0xD0]
    (fun t => t.seg.ss == 0x2000 && t.ip == 0x0102) = true := by decide +kernel

/-- VT14. -/
theorem test_mov_from_ds : shows { boot with seg := { boot.seg with ds := 0x4321 } } [0x8C, 0xDB]
    (fun t => t.gpr.bx == 0x4321 && t.ip == 0x0102) = true := by decide +kernel

/-- VT19. -/
theorem test_push_memory : shows (poke { boot with
      gpr := { boot.gpr with sp := 0x0100 }
      seg := { boot.seg with ss := 0x2000, ds := 0x0300 } } 0x0300 0x2000 [0xEF, 0xBE]) [0xFF, 0x36, 0x00, 0x20]
    (fun t => t.readWord 0x2000 0x00FE == 0xBEEF && t.gpr.sp == 0x00FE && t.ip == 0x0104) = true := by decide +kernel

/-- VT16. -/
theorem test_push_sp : shows { boot with
      gpr := { boot.gpr with sp := 0x0100 }
      seg := { boot.seg with ss := 0x2000 } } [0x54]
    (fun t => t.readWord 0x2000 0x00FE == 0x00FE && t.gpr.sp == 0x00FE && t.ip == 0x0101) = true := by decide +kernel

/-- VT18. -/
theorem test_push_word_wraps : shows { boot with
      gpr := { boot.gpr with ax := 0xA55A, sp := 0x0001 }
      seg := { boot.seg with ss := 0x2000 } } [0x50]
    (fun t => t.readByte 0x2000 0xFFFF == 0x5A && t.readByte 0x2000 0x0000 == 0xA5 && t.gpr.sp == 0xFFFF &&
    t.ip == 0x0101) = true := by decide +kernel

/-- VP14. -/
theorem test_push_ignores_override : shows { boot with
      gpr := { boot.gpr with ax := 0x1234, sp := 0x0100 }
      seg := { boot.seg with ss := 0x2000, es := 0x3000 } } [0x26, 0x50]
    (fun t => t.readWord 0x2000 0x00FE == 0x1234 && t.gpr.sp == 0x00FE && t.ip == 0x0102) = true := by decide +kernel

/-- VT22. -/
theorem test_pop_memory : shows (poke { boot with
      gpr := { boot.gpr with sp := 0x00FE }
      seg := { boot.seg with ss := 0x2000, ds := 0x0300 } } 0x2000 0x00FE [0x34, 0x12]) [0x8F, 0x06, 0x00, 0x30]
    (fun t => t.readWord 0x0300 0x3000 == 0x1234 && t.gpr.sp == 0x0100 && t.ip == 0x0104) = true := by decide +kernel

/-- VT21. -/
theorem test_pop_sp : shows (poke { boot with
      gpr := { boot.gpr with sp := 0x00FE }
      seg := { boot.seg with ss := 0x2000 } } 0x2000 0x00FE [0x00, 0x80]) [0x5C]
    (fun t => t.gpr.sp == 0x8000 && t.ip == 0x0101) = true := by decide +kernel

/-- VT23. -/
theorem test_pop_ds : shows (poke { boot with
      gpr := { boot.gpr with sp := 0x000E }
      seg := { boot.seg with ss := 0x2000 } } 0x2000 0x000E [0x00, 0x40]) [0x1F]
    (fun t => t.seg.ds == 0x4000 && t.gpr.sp == 0x0010 && t.ip == 0x0101) = true := by decide +kernel

/-- VT26. -/
theorem test_xchg_memory : shows (poke { boot with
      gpr := { boot.gpr with ax := 0x00AA, bx := 0x0010 }
      seg := { boot.seg with ds := 0x0200 } } 0x0200 0x0010 [0x55]) [0x86, 0x07]
    (fun t => t.readByte 0x0200 0x0010 == 0xAA && t.gpr.ax == 0x0055 && t.ip == 0x0102) = true := by decide +kernel

/-- VT27. -/
theorem test_xchg_ax : shows { boot with gpr := { boot.gpr with ax := 0x1111, bx := 0x2222 } } [0x93]
    (fun t => t.gpr.ax == 0x2222 && t.gpr.bx == 0x1111 && t.ip == 0x0101) = true := by decide +kernel

/-- VT39. -/
theorem test_in_fixed : shows { boot with portIn := [0x1C] } [0xE4, 0x60]
    (fun t => t.gpr.ax == 0x001C && t.ip == 0x0102) = true := by decide +kernel

/-- VT40. -/
theorem test_in_variable_word : shows { boot with
      gpr := { boot.gpr with dx := 0x03F8 }
      portIn := [0x34, 0x12] } [0xED]
    (fun t => t.gpr.ax == 0x1234 && t.ip == 0x0101) = true := by decide +kernel

/-- VT41. -/
theorem test_out_fixed : shows { boot with gpr := { boot.gpr with ax := 0x12AB } } [0xE6, 0x80]
    (fun t => t.ip == 0x0102 && t.io == [.write 0x0080 .byte 0x00AB]) = true := by decide +kernel

/-- VT42. -/
theorem test_out_variable_word : shows { boot with gpr := { boot.gpr with ax := 0x12AB, dx := 0x0300 } } [0xEF]
    (fun t => t.ip == 0x0101 && t.io == [.write 0x0300 .word 0x12AB]) = true := by decide +kernel

/-- VT29. -/
theorem test_xlat_unsigned : shows (poke { boot with
      gpr := { boot.gpr with bx := 0x0200, ax := 0x00FF }
      seg := { boot.seg with ds := 0x0100 } } 0x0100 0x02FF [0x77]) [0xD7]
    (fun t => t.gpr.ax == 0x0077 && t.ip == 0x0101) = true := by decide +kernel

/-- VT30. -/
theorem test_lea_wraps : shows { boot with gpr := { boot.gpr with bx := 0x0000, si := 0x0000 } } [0x8D, 0x40, 0xFF]
    (fun t => t.gpr.ax == 0xFFFF && t.ip == 0x0103) = true := by decide +kernel

/-- VT32. -/
theorem test_lds : shows (poke { boot with seg := { boot.seg with ds := 0x0100 } }
    0x0100 0x0200 [0x78, 0x56, 0x34, 0x12]) [0xC5, 0x1E, 0x00, 0x02]
    (fun t => t.gpr.bx == 0x5678 && t.seg.ds == 0x1234 && t.ip == 0x0104) = true := by decide +kernel

/-- VT33. -/
theorem test_les : shows (poke { boot with
      gpr := { boot.gpr with si := 0x0010 }
      seg := { boot.seg with ds := 0x0100 } } 0x0100 0x0010 [0x00, 0x80, 0x00, 0xB8]) [0xC4, 0x3C]
    (fun t => t.gpr.di == 0x8000 && t.seg.es == 0xB800 && t.ip == 0x0102) = true := by decide +kernel

/-- VT34. -/
theorem test_lahf : shows { boot with
      gpr := { boot.gpr with ax := 0x0000 }
      flags := { boot.flags with sf := true, zf := true, cf := true } } [0x9F]
    (fun t => t.gpr.ax == 0xC300 && t.ip == 0x0101) = true := by decide +kernel

/-- VT35. -/
theorem test_sahf : shows { boot with
      gpr := { boot.gpr with ax := 0xFF00 }
      flags := { boot.flags with of := true, df := true } } [0x9E]
    (fun t => t.flags.of && t.flags.df && t.flags.sf && t.flags.zf && t.flags.af && t.flags.pf && t.flags.cf &&
    t.ip == 0x0101) = true := by decide +kernel

/-- VT36. -/
theorem test_pushf : shows { boot with
      gpr := { boot.gpr with sp := 0x0100 }
      flags := { boot.flags with cf := true, zf := true, ifl := true } } [0x9C]
    (fun t => t.readWord 0x0000 0x00FE == 0xF243 && t.gpr.sp == 0x00FE && t.ip == 0x0101) = true := by decide +kernel

/-- VT37. -/
theorem test_popf : shows (poke { boot with gpr := { boot.gpr with sp := 0x00FE } } 0x0000 0x00FE [0xFF, 0xFF]) [0x9D]
    (fun t => t.gpr.sp == 0x0100 && t.flags.image == 0xFFD7 && t.ip == 0x0101) = true := by decide +kernel

/-- VA3. -/
theorem test_add_to_register : shows (poke { boot with
      gpr := { boot.gpr with ax := 0x0F, bx := 0x0010 }
      seg := { boot.seg with ds := 0x0100 } } 0x0100 0x0010 [0x01]) [0x02, 0x07]
    (fun t => t.gpr.ax == 0x0010 && !t.flags.of && !t.flags.sf && !t.flags.zf && t.flags.af && !t.flags.pf &&
    !t.flags.cf && t.ip == 0x0102) = true := by decide +kernel

/-- VA2. -/
theorem test_add_overflow : shows { boot with gpr := { boot.gpr with ax := 0x7FFF, bx := 0x0001 } } [0x01, 0xD8]
    (fun t => t.gpr.ax == 0x8000 && t.flags.of && t.flags.sf && !t.flags.zf && t.flags.af && t.flags.pf && !t.flags.cf &&
    t.ip == 0x0102) = true := by decide +kernel

/-- VA6. -/
theorem test_add_sign_extended : shows { boot with gpr := { boot.gpr with cx := 0x0100 } } [0x83, 0xC1, 0x80]
    (fun t => t.gpr.cx == 0x0080 && !t.flags.of && !t.flags.sf && !t.flags.zf && !t.flags.af && !t.flags.pf &&
    t.flags.cf && t.ip == 0x0103) = true := by decide +kernel

/-- VA9. -/
theorem test_add_accumulator : shows { boot with gpr := { boot.gpr with ax := 0x0001 } } [0x05, 0xFF, 0xFF]
    (fun t => t.gpr.ax == 0x0000 && !t.flags.of && !t.flags.sf && t.flags.zf && t.flags.af && t.flags.pf && t.flags.cf &&
    t.ip == 0x0103) = true := by decide +kernel

/-- VA11. -/
theorem test_adc_overflow_by_carry : shows { boot with
      gpr := { boot.gpr with ax := 0x7FFF, bx := 0x0000 }
      flags := { boot.flags with cf := true } } [0x11, 0xD8]
    (fun t => t.gpr.ax == 0x8000 && t.flags.of && t.flags.sf && !t.flags.zf && t.flags.af && t.flags.pf && !t.flags.cf &&
    t.ip == 0x0102) = true := by decide +kernel

/-- VA12. -/
theorem test_adc_half_carry : shows { boot with
      gpr := { boot.gpr with ax := 0x00 }
      flags := { boot.flags with cf := true } } [0x14, 0x0F]
    (fun t => t.gpr.ax == 0x0010 && !t.flags.of && !t.flags.sf && !t.flags.zf && t.flags.af && !t.flags.pf &&
    !t.flags.cf && t.ip == 0x0102) = true := by decide +kernel

/-- VA14. -/
theorem test_inc_keeps_cf : shows { boot with
      gpr := { boot.gpr with ax := 0xFFFF }
      flags := { boot.flags with cf := true } } [0x40]
    (fun t => t.gpr.ax == 0x0000 && !t.flags.of && !t.flags.sf && t.flags.zf && t.flags.af && t.flags.pf && t.flags.cf &&
    t.ip == 0x0101) = true := by decide +kernel

/-- VA15. -/
theorem test_inc_memory : shows (poke { boot with seg := { boot.seg with ds := 0x0100 } } 0x0100 0x0200 [0x7F])
    [0xFE, 0x06, 0x00, 0x02]
    (fun t => t.readByte 0x0100 0x0200 == 0x80 && t.flags.of && t.flags.sf && !t.flags.zf && t.flags.af && !t.flags.pf &&
    !t.flags.cf && t.ip == 0x0104) = true := by decide +kernel

/-- VA35. -/
theorem test_aaa : shows { boot with
      gpr := { boot.gpr with ax := 0x02FF }
      flags := { boot.flags with af := false } } [0x37]
    (fun t => t.gpr.ax == 0x0305 && t.flags.af && t.flags.cf && t.ip == 0x0101) = true := by decide +kernel

/-- VA39. -/
theorem test_daa : shows { boot with
      gpr := { boot.gpr with ax := 0x12 }
      flags := { boot.flags with af := true, cf := true } } [0x27]
    (fun t => t.gpr.ax == 0x0078 && !t.flags.sf && !t.flags.zf && t.flags.af && t.flags.pf && t.flags.cf &&
    t.ip == 0x0101) = true := by decide +kernel

/-- VA18. -/
theorem test_sub_overflow : shows { boot with gpr := { boot.gpr with ax := 0x8000, bx := 0x0001 } } [0x29, 0xD8]
    (fun t => t.gpr.ax == 0x7FFF && t.flags.of && !t.flags.sf && !t.flags.zf && t.flags.af && t.flags.pf &&
    !t.flags.cf && t.ip == 0x0102) = true := by decide +kernel

/-- VA20. -/
theorem test_sub_sp : shows { boot with gpr := { boot.gpr with sp := 0x0100 } } [0x83, 0xEC, 0x10]
    (fun t => t.gpr.sp == 0x00F0 && !t.flags.of && !t.flags.sf && !t.flags.zf && !t.flags.af && t.flags.pf &&
    !t.flags.cf && t.ip == 0x0103) = true := by decide +kernel

/-- VA21. -/
theorem test_sbb_borrow : shows { boot with
      gpr := { boot.gpr with ax := 0x00, bx := 0xFF }
      flags := { boot.flags with cf := true } } [0x18, 0xD8]
    (fun t => t.gpr.ax == 0x0000 && !t.flags.of && !t.flags.sf && t.flags.zf && t.flags.af && t.flags.pf && t.flags.cf &&
    t.ip == 0x0102) = true := by decide +kernel

/-- VA24. -/
theorem test_sbb_immediate : shows { boot with
      gpr := { boot.gpr with bx := 0x01 }
      flags := { boot.flags with cf := true } } [0x80, 0xDB, 0x01]
    (fun t => t.gpr.bx == 0x00FF && !t.flags.of && t.flags.sf && !t.flags.zf && t.flags.af && t.flags.pf && t.flags.cf &&
    t.ip == 0x0103) = true := by decide +kernel

/-- VA22. -/
theorem test_sbb_accumulator : shows { boot with
      gpr := { boot.gpr with ax := 0x10 }
      flags := { boot.flags with cf := true } } [0x1C, 0x0F]
    (fun t => t.gpr.ax == 0x0000 && !t.flags.of && !t.flags.sf && t.flags.zf && t.flags.af && t.flags.pf &&
    !t.flags.cf && t.ip == 0x0102) = true := by decide +kernel

/-- VA25. -/
theorem test_dec_keeps_cf : shows { boot with
      gpr := { boot.gpr with ax := 0x0000 }
      flags := { boot.flags with cf := false } } [0x48]
    (fun t => t.gpr.ax == 0xFFFF && !t.flags.of && t.flags.sf && !t.flags.zf && t.flags.af && t.flags.pf &&
    !t.flags.cf && t.ip == 0x0101) = true := by decide +kernel

/-- VA26. -/
theorem test_dec_byte : shows { boot with gpr := { boot.gpr with cx := 0x0180 } } [0xFE, 0xC9]
    (fun t => t.gpr.cx == 0x017F && t.flags.of && !t.flags.sf && !t.flags.zf && t.flags.af && !t.flags.pf &&
    !t.flags.cf && t.ip == 0x0102) = true := by decide +kernel

/-- VA27. -/
theorem test_neg_most_negative : shows { boot with gpr := { boot.gpr with ax := 0x80 } } [0xF6, 0xD8]
    (fun t => t.gpr.ax == 0x0080 && t.flags.of && t.flags.sf && !t.flags.zf && !t.flags.af && !t.flags.pf &&
    t.flags.cf && t.ip == 0x0102) = true := by decide +kernel

/-- VA31. -/
theorem test_cmp_signed : shows { boot with gpr := { boot.gpr with ax := 0x8000, bx := 0x0001 } } [0x3B, 0xC3]
    (fun t => t.gpr.ax == 0x8000 && t.flags.of && !t.flags.sf && !t.flags.zf && t.flags.af && t.flags.pf &&
    !t.flags.cf && t.ip == 0x0102) = true := by decide +kernel

/-- VA32. -/
theorem test_cmp_memory : shows (poke { boot with seg := { boot.seg with ds := 0x0100 } } 0x0100 0x0200 [0xFF, 0xFF])
    [0x83, 0x3E, 0x00, 0x02, 0xFF]
    (fun t => t.readWord 0x0100 0x0200 == 0xFFFF && !t.flags.of && !t.flags.sf && t.flags.zf && !t.flags.af &&
    t.flags.pf && !t.flags.cf && t.ip == 0x0105) = true := by decide +kernel

/-- VA37. -/
theorem test_aas : shows { boot with
      gpr := { boot.gpr with ax := 0x0003 }
      flags := { boot.flags with af := true } } [0x3F]
    (fun t => t.gpr.ax == 0xFF0D && t.flags.af && t.flags.cf && t.ip == 0x0101) = true := by decide +kernel

/-- VA42. -/
theorem test_das : shows { boot with
      gpr := { boot.gpr with ax := 0x05 }
      flags := { boot.flags with af := true, cf := false } } [0x2F]
    (fun t => t.gpr.ax == 0x00FF && t.flags.sf && !t.flags.zf && t.flags.af && t.flags.pf && t.flags.cf &&
    t.ip == 0x0101) = true := by decide +kernel

/-- VA45. -/
theorem test_mul_word : shows { boot with gpr := { boot.gpr with ax := 0xFFFF, dx := 0xFFFF } } [0xF7, 0xE2]
    (fun t => t.gpr.ax == 0x0001 && t.gpr.dx == 0xFFFE && t.flags.of && t.flags.cf &&
    t.ip == 0x0102) = true := by decide +kernel

/-- VA48. -/
theorem test_imul_byte : shows { boot with gpr := { boot.gpr with ax := 0x40, bx := 0x02 } } [0xF6, 0xEB]
    (fun t => t.gpr.ax == 0x0080 && t.flags.of && t.flags.cf && t.ip == 0x0102) = true := by decide +kernel

/-- VA49. -/
theorem test_imul_word : shows { boot with gpr := { boot.gpr with ax := 0x8000, cx := 0xFFFF } } [0xF7, 0xE9]
    (fun t => t.gpr.ax == 0x8000 && t.gpr.dx == 0x0000 && t.flags.of && t.flags.cf &&
    t.ip == 0x0102) = true := by decide +kernel

/-- VA50. -/
theorem test_aam : shows { boot with gpr := { boot.gpr with ax := 0xFF } } [0xD4, 0x0A]
    (fun t => t.gpr.ax == 0x1905 && !t.flags.sf && !t.flags.zf && t.flags.pf && t.ip == 0x0102) = true := by decide +kernel

/-- VA54. -/
theorem test_aad : shows { boot with gpr := { boot.gpr with ax := 0x1A00 } } [0xD5, 0x0A]
    (fun t => t.gpr.ax == 0x0004 && !t.flags.sf && !t.flags.zf && !t.flags.pf && t.ip == 0x0102) = true := by decide +kernel

/-- VA56. -/
theorem test_div_largest_quotient : shows { boot with gpr := { boot.gpr with ax := 0x0FFF, bx := 0x10 } } [0xF6, 0xF3]
    (fun t => t.gpr.ax == 0x0FFF && t.ip == 0x0102) = true := by decide +kernel

/-- VA58. -/
theorem test_idiv_smallest_quotient : shows { boot with gpr := { boot.gpr with ax := 0xFF81, bx := 0x01 } } [0xF6, 0xFB]
    (fun t => t.gpr.ax == 0x0081 && t.ip == 0x0102) = true := by decide +kernel

/-- VA59. -/
theorem test_idiv_truncates : shows { boot with gpr := { boot.gpr with ax := 0x0007, bx := 0xFE } } [0xF6, 0xFB]
    (fun t => t.gpr.ax == 0x01FD && t.ip == 0x0102) = true := by decide +kernel

/-- VA61. -/
theorem test_cbw : shows { boot with gpr := { boot.gpr with ax := 0x1280 } } [0x98]
    (fun t => t.gpr.ax == 0xFF80 && t.ip == 0x0101) = true := by decide +kernel

/-- VA63. -/
theorem test_cwd : shows { boot with gpr := { boot.gpr with ax := 0x8000, dx := 0x1234 } } [0x99]
    (fun t => t.gpr.ax == 0x8000 && t.gpr.dx == 0xFFFF && t.ip == 0x0101) = true := by decide +kernel

/-- VL1. -/
theorem test_not_keeps_flags : shows { boot with
      gpr := { boot.gpr with ax := 0x55 }
      flags := { boot.flags with cf := true, zf := true } } [0xF6, 0xD0]
    (fun t => t.gpr.ax == 0x00AA && !t.flags.of && !t.flags.sf && t.flags.zf && !t.flags.af && !t.flags.pf &&
    t.flags.cf && t.ip == 0x0102) = true := by decide +kernel

/-- VL4. -/
theorem test_shl_one : shows { boot with gpr := { boot.gpr with ax := 0xC000 } } [0xD1, 0xE0]
    (fun t => t.gpr.ax == 0x8000 && !t.flags.of && t.flags.sf && !t.flags.zf && t.flags.pf && t.flags.cf &&
    t.ip == 0x0102) = true := by decide +kernel

/-- VL10. -/
theorem test_shl_cl_is_operand : shows { boot with gpr := { boot.gpr with cx := 0x0003 } } [0xD3, 0xE1]
    (fun t => t.gpr.cx == 0x0018 && !t.flags.sf && !t.flags.zf && t.flags.pf && !t.flags.cf &&
    t.ip == 0x0102) = true := by decide +kernel

/-- VL11. -/
theorem test_shr_one : shows { boot with gpr := { boot.gpr with ax := 0x8001 } } [0xD1, 0xE8]
    (fun t => t.gpr.ax == 0x4000 && t.flags.of && !t.flags.sf && !t.flags.zf && t.flags.pf && t.flags.cf &&
    t.ip == 0x0102) = true := by decide +kernel

/-- VL14. -/
theorem test_sar_beyond_width : shows { boot with gpr := { boot.gpr with ax := 0x80, cx := 0x0A } } [0xD2, 0xF8]
    (fun t => t.gpr.ax == 0x00FF && t.flags.sf && !t.flags.zf && t.flags.pf && t.flags.cf &&
    t.ip == 0x0102) = true := by decide +kernel

/-- VL16. -/
theorem test_rol_keeps_zf : shows { boot with
      gpr := { boot.gpr with ax := 0x8000 }
      flags := { boot.flags with zf := true } } [0xD1, 0xC0]
    (fun t => t.gpr.ax == 0x0001 && t.flags.of && !t.flags.sf && t.flags.zf && !t.flags.af && !t.flags.pf &&
    t.flags.cf && t.ip == 0x0102) = true := by decide +kernel

/-- VL19. -/
theorem test_ror_one : shows { boot with gpr := { boot.gpr with ax := 0x0001 } } [0xD1, 0xC8]
    (fun t => t.gpr.ax == 0x8000 && t.flags.of && !t.flags.sf && !t.flags.zf && !t.flags.af && !t.flags.pf &&
    t.flags.cf && t.ip == 0x0102) = true := by decide +kernel

/-- VL22. -/
theorem test_rcl_full_turn : shows { boot with
      gpr := { boot.gpr with ax := 0x80, cx := 0x09 }
      flags := { boot.flags with cf := false } } [0xD2, 0xD0]
    (fun t => t.gpr.ax == 0x0080 && !t.flags.sf && !t.flags.zf && !t.flags.af && !t.flags.pf && !t.flags.cf &&
    t.ip == 0x0102) = true := by decide +kernel

/-- VL24. -/
theorem test_rcr_two : shows { boot with
      gpr := { boot.gpr with ax := 0x01, cx := 0x02 }
      flags := { boot.flags with cf := true } } [0xD2, 0xD8]
    (fun t => t.gpr.ax == 0x00C0 && !t.flags.sf && !t.flags.zf && !t.flags.af && !t.flags.pf && !t.flags.cf &&
    t.ip == 0x0102) = true := by decide +kernel

/-- VL26. -/
theorem test_and_clears : shows { boot with
      gpr := { boot.gpr with ax := 0xF0, bx := 0x3C }
      flags := { boot.flags with cf := true, of := true } } [0x20, 0xD8]
    (fun t => t.gpr.ax == 0x0030 && !t.flags.of && !t.flags.sf && !t.flags.zf && t.flags.pf && !t.flags.cf &&
    t.ip == 0x0102) = true := by decide +kernel

/-- VL27. -/
theorem test_and_word_immediate : shows { boot with gpr := { boot.gpr with bx := 0xFFFF } } [0x81, 0xE3, 0x0F, 0xF0]
    (fun t => t.gpr.bx == 0xF00F && !t.flags.of && t.flags.sf && !t.flags.zf && t.flags.pf && !t.flags.cf &&
    t.ip == 0x0104) = true := by decide +kernel

/-- VL29. -/
theorem test_test_registers : shows { boot with gpr := { boot.gpr with ax := 0x80, bx := 0x80 } } [0x84, 0xD8]
    (fun t => t.gpr.ax == 0x0080 && !t.flags.of && t.flags.sf && !t.flags.zf && !t.flags.pf && !t.flags.cf &&
    t.ip == 0x0102) = true := by decide +kernel

/-- VL30. -/
theorem test_test_immediate : shows { boot with gpr := { boot.gpr with cx := 0x7FFF } } [0xF7, 0xC1, 0x00, 0x80]
    (fun t => t.gpr.cx == 0x7FFF && !t.flags.of && !t.flags.sf && t.flags.zf && t.flags.pf && !t.flags.cf &&
    t.ip == 0x0104) = true := by decide +kernel

/-- VL31. -/
theorem test_test_accumulator : shows { boot with gpr := { boot.gpr with ax := 0x0001 } } [0xA9, 0x01, 0x00]
    (fun t => t.gpr.ax == 0x0001 && !t.flags.of && !t.flags.sf && !t.flags.zf && !t.flags.pf && !t.flags.cf &&
    t.ip == 0x0103) = true := by decide +kernel

/-- VL32. -/
theorem test_or_memory : shows (poke { boot with
      gpr := { boot.gpr with ax := 0x0F, bx := 0x0010 }
      seg := { boot.seg with ds := 0x0100 } } 0x0100 0x0010 [0xF0]) [0x08, 0x07]
    (fun t => t.readByte 0x0100 0x0010 == 0xFF && !t.flags.of && t.flags.sf && !t.flags.zf && t.flags.pf &&
    !t.flags.cf && t.ip == 0x0102) = true := by decide +kernel

/-- VL33. -/
theorem test_or_accumulator : shows { boot with gpr := { boot.gpr with ax := 0x0001 } } [0x0D, 0x00, 0x80]
    (fun t => t.gpr.ax == 0x8001 && !t.flags.of && t.flags.sf && !t.flags.zf && !t.flags.pf && !t.flags.cf &&
    t.ip == 0x0103) = true := by decide +kernel

/-- VL34. -/
theorem test_xor_ah : shows { boot with gpr := { boot.gpr with ax := 0xAB12 } } [0x30, 0xE4]
    (fun t => t.gpr.ax == 0x0012 && !t.flags.of && !t.flags.sf && t.flags.zf && t.flags.pf && !t.flags.cf &&
    t.ip == 0x0102) = true := by decide +kernel

/-- VL35. -/
theorem test_xor_accumulator : shows { boot with
      gpr := { boot.gpr with ax := 0x00FF }
      flags := { boot.flags with cf := true } } [0x35, 0xFF, 0xFF]
    (fun t => t.gpr.ax == 0xFF00 && !t.flags.of && t.flags.sf && !t.flags.zf && t.flags.pf && !t.flags.cf &&
    t.ip == 0x0103) = true := by decide +kernel

/-- VS2. -/
theorem test_movs_down : shows (poke { boot with
      gpr := { boot.gpr with si := 0x0010, di := 0x0020 }
      seg := { boot.seg with ds := 0x0100, es := 0x0200 }
      flags := { boot.flags with df := true } } 0x0100 0x0010 [0x41, 0x42]) [0xA5]
    (fun t => t.readWord 0x0200 0x0020 == 0x4241 && t.gpr.si == 0x000E && t.gpr.di == 0x001E &&
    t.ip == 0x0101) = true := by decide +kernel

/-- VS5. -/
theorem test_rep_movs_overlap : shows (poke { boot with
      gpr := { boot.gpr with cx := 0x0004, si := 0x0010, di := 0x0011 }
      seg := { boot.seg with ds := 0x0100, es := 0x0100 } } 0x0100 0x0010 [0xAA, 0x01, 0x02, 0x03, 0x04]) [0xF3, 0xA4]
    (fun t => t.readWord 0x0100 0x0011 == 0xAAAA && t.readWord 0x0100 0x0013 == 0xAAAA && t.gpr.cx == 0x0000 &&
    t.gpr.si == 0x0014 && t.gpr.di == 0x0015 && t.ip == 0x0102) = true := by decide +kernel

/-- VS6. -/
theorem test_movs_override : shows (poke (poke { boot with
      gpr := { boot.gpr with si := 0x0010, di := 0x0020 }
      seg := { boot.seg with ds := 0x0100, es := 0x0200 } } 0x0100 0x0010 [0x41]) 0x0200 0x0010 [0x99]) [0x26, 0xA4]
    (fun t => t.readByte 0x0200 0x0020 == 0x99 && t.gpr.si == 0x0011 && t.gpr.di == 0x0021 &&
    t.ip == 0x0102) = true := by decide +kernel

/-- VS7. -/
theorem test_cmps_direction : shows (poke (poke { boot with
      gpr := { boot.gpr with si := 0x0010, di := 0x0020 }
      seg := { boot.seg with ds := 0x0100, es := 0x0200 } } 0x0100 0x0010 [0x03]) 0x0200 0x0020 [0x05]) [0xA6]
    (fun t => t.gpr.si == 0x0011 && t.gpr.di == 0x0021 && !t.flags.of && t.flags.sf && !t.flags.zf && t.flags.af &&
    !t.flags.pf && t.flags.cf && t.ip == 0x0101) = true := by decide +kernel

/-- VS8. -/
theorem test_repe_cmps : shows (poke (poke { boot with
      gpr := { boot.gpr with cx := 0x0005, si := 0x0000, di := 0x0000 }
      seg := { boot.seg with ds := 0x0100, es := 0x0200 } } 0x0100 0x0000 [0x01, 0x02, 0x03, 0x04, 0x05])
    0x0200 0x0000 [0x01, 0x02, 0x09, 0x04, 0x05]) [0xF3, 0xA6]
    (fun t => t.gpr.cx == 0x0002 && t.gpr.si == 0x0003 && t.gpr.di == 0x0003 && !t.flags.of && t.flags.sf &&
    !t.flags.zf && t.flags.af && t.flags.pf && t.flags.cf && t.ip == 0x0102) = true := by decide +kernel

/-- VS11. -/
theorem test_repne_scas : shows (poke { boot with
      gpr := { boot.gpr with ax := 0x0000, cx := 0x0008, di := 0x0000 }
      seg := { boot.seg with es := 0x0200 } } 0x0200 0x0000 [0x48, 0x49, 0x00, 0x4A]) [0xF2, 0xAE]
    (fun t => t.gpr.cx == 0x0005 && t.gpr.di == 0x0003 && !t.flags.of && !t.flags.sf && t.flags.zf && !t.flags.af &&
    t.flags.pf && !t.flags.cf && t.ip == 0x0102) = true := by decide +kernel

/-- VS13. -/
theorem test_lods_wraps : shows (poke { boot with
      gpr := { boot.gpr with si := 0xFFFF }
      seg := { boot.seg with ds := 0x0100 } } 0x0100 0xFFFF [0x7E]) [0xAC]
    (fun t => t.gpr.ax == 0x007E && t.gpr.si == 0x0000 && t.ip == 0x0101) = true := by decide +kernel

/-- VS15. -/
theorem test_rep_stos : shows { boot with
      gpr := { boot.gpr with ax := 0xABCD, cx := 0x0002, di := 0x0010 }
      seg := { boot.seg with es := 0x0200 } } [0xF3, 0xAB]
    (fun t => t.readWord 0x0200 0x0010 == 0xABCD && t.readWord 0x0200 0x0012 == 0xABCD && t.gpr.cx == 0x0000 &&
    t.gpr.di == 0x0014 && t.ip == 0x0102) = true := by decide +kernel

/-- VC2. -/
theorem test_call_itself : shows { boot with
      gpr := { boot.gpr with sp := 0x0100 }
      seg := { boot.seg with ss := 0x2000 } } [0xE8, 0xFD, 0xFF]
    (fun t => t.readWord 0x2000 0x00FE == 0x0103 && t.gpr.sp == 0x00FE && t.ip == 0x0100) = true := by decide +kernel

/-- VC4. -/
theorem test_call_memory : shows (poke { boot with
      gpr := { boot.gpr with bx := 0x0010, sp := 0x0100 }
      seg := { boot.seg with ds := 0x0300, ss := 0x2000 } } 0x0300 0x0010 [0x00, 0x50]) [0xFF, 0x17]
    (fun t => t.readWord 0x2000 0x00FE == 0x0102 && t.gpr.sp == 0x00FE && t.ip == 0x5000) = true := by decide +kernel

/-- VC5. -/
theorem test_call_far : shows { boot with
      gpr := { boot.gpr with sp := 0x0100 }
      seg := { boot.seg with cs := 0x1000, ss := 0x2000 }
      ip := 0x0010 } [0x9A, 0x00, 0x02, 0x00, 0x30]
    (fun t => t.readWord 0x2000 0x00FE == 0x1000 && t.readWord 0x2000 0x00FC == 0x0015 && t.seg.cs == 0x3000 &&
    t.gpr.sp == 0x00FC && t.ip == 0x0200) = true := by decide +kernel

/-- VC6. -/
theorem test_call_far_memory : shows (poke { boot with
      gpr := { boot.gpr with bx := 0x0010, sp := 0x0100 }
      seg := { boot.seg with ds := 0x0300, ss := 0x2000 } } 0x0300 0x0010 [0x00, 0x02, 0x00, 0x30]) [0xFF, 0x1F]
    (fun t => t.readWord 0x2000 0x00FE == 0x0000 && t.readWord 0x2000 0x00FC == 0x0102 && t.seg.cs == 0x3000 &&
    t.gpr.sp == 0x00FC && t.ip == 0x0200) = true := by decide +kernel

/-- VC9. -/
theorem test_jmp_wraps : shows boot [0xE9, 0x00, 0xFF]
    (fun t => t.ip == 0x0003) = true := by decide +kernel

/-- VC12. -/
theorem test_jmp_short_back : shows boot [0xEB, 0x80]
    (fun t => t.ip == 0x0082) = true := by decide +kernel

/-- VC13. -/
theorem test_jmp_register : shows { boot with gpr := { boot.gpr with ax := 0xFFFF } } [0xFF, 0xE0]
    (fun t => t.ip == 0xFFFF) = true := by decide +kernel

/-- VC15. -/
theorem test_jmp_far : shows boot [0xEA, 0x00, 0x00, 0xFF, 0xFF]
    (fun t => t.seg.cs == 0xFFFF && t.ip == 0x0000) = true := by decide +kernel

/-- VC16. -/
theorem test_jmp_far_memory : shows (poke { boot with
      gpr := { boot.gpr with bx := 0x0010 }
      seg := { boot.seg with ds := 0x0300 } } 0x0300 0x0010 [0x78, 0x56, 0x34, 0x12]) [0xFF, 0x2F]
    (fun t => t.seg.cs == 0x1234 && t.ip == 0x5678) = true := by decide +kernel

/-- VC17. -/
theorem test_ret : shows (poke { boot with
      gpr := { boot.gpr with sp := 0x00FE }
      seg := { boot.seg with ss := 0x2000 } } 0x2000 0x00FE [0x03, 0x01]) [0xC3]
    (fun t => t.gpr.sp == 0x0100 && t.ip == 0x0103) = true := by decide +kernel

/-- VC21. -/
theorem test_ret_immediate_wraps : shows (poke { boot with
      gpr := { boot.gpr with sp := 0x0000 }
      seg := { boot.seg with ss := 0x2000 } } 0x2000 0x0000 [0x00, 0x02]) [0xC2, 0xFF, 0xFF]
    (fun t => t.gpr.sp == 0x0001 && t.ip == 0x0200) = true := by decide +kernel

/-- VC19. -/
theorem test_ret_far : shows (poke { boot with
      gpr := { boot.gpr with sp := 0x00FC }
      seg := { boot.seg with ss := 0x2000 } } 0x2000 0x00FC [0x15, 0x00, 0x00, 0x10]) [0xCB]
    (fun t => t.seg.cs == 0x1000 && t.gpr.sp == 0x0100 && t.ip == 0x0015) = true := by decide +kernel

/-- VC20. -/
theorem test_ret_far_immediate : shows (poke { boot with
      gpr := { boot.gpr with sp := 0x00FC }
      seg := { boot.seg with ss := 0x2000 } } 0x2000 0x00FC [0x15, 0x00, 0x00, 0x10]) [0xCA, 0x02, 0x00]
    (fun t => t.seg.cs == 0x1000 && t.gpr.sp == 0x0102 && t.ip == 0x0015) = true := by decide +kernel

/-- VC22 to VC37: the sixteen conditional jumps after CMP of 3 with 5. -/
theorem test_conditional_jumps :
    ([(0x70, 0x0102), (0x71, 0x0112), (0x72, 0x0112), (0x73, 0x0102), (0x74, 0x0102), (0x75, 0x0112), (0x76, 0x0112),
      (0x77, 0x0102), (0x78, 0x0112), (0x79, 0x0102), (0x7A, 0x0102), (0x7B, 0x0112), (0x7C, 0x0112), (0x7D, 0x0102),
      (0x7E, 0x0112), (0x7F, 0x0102)] : List (Byte × Word)).all (fun p =>
        shows { boot with flags := { boot.flags with sf := true, cf := true, af := true } } [p.1, 0x10]
          (fun t => t.ip == p.2)) = true := by decide +kernel

/-- VC40, VC38: JG with SF = OF and ZF = 0 jumps, with SF different from OF it does not. -/
theorem test_jg :
    (shows { boot with flags := { boot.flags with sf := true, of := true } } [0x7F, 0x10] (fun t => t.ip == 0x0112) &&
      shows { boot with flags := { boot.flags with sf := true } } [0x7F, 0x10] (fun t => t.ip == 0x0102)) = true := by
  decide +kernel

/-- VC45. -/
theorem test_loop_from_zero : shows { boot with gpr := { boot.gpr with cx := 0x0000 } } [0xE2, 0xFE]
    (fun t => t.gpr.cx == 0xFFFF && t.ip == 0x0100) = true := by decide +kernel

/-- VC47. -/
theorem test_loopz_taken : shows { boot with
      gpr := { boot.gpr with cx := 0x0002 }
      flags := { boot.flags with zf := true } } [0xE1, 0x10]
    (fun t => t.gpr.cx == 0x0001 && t.ip == 0x0112) = true := by decide +kernel

/-- VC50. -/
theorem test_loopnz_ends : shows { boot with
      gpr := { boot.gpr with cx := 0x0001 }
      flags := { boot.flags with zf := false } } [0xE0, 0x10]
    (fun t => t.gpr.cx == 0x0000 && t.ip == 0x0102) = true := by decide +kernel

/-- VC51. -/
theorem test_jcxz_taken : shows { boot with gpr := { boot.gpr with cx := 0x0000 } } [0xE3, 0x10]
    (fun t => t.gpr.cx == 0x0000 && t.ip == 0x0112) = true := by decide +kernel

/-- VX1. -/
theorem test_int : shows (poke { boot with
      gpr := { boot.gpr with sp := 0x0100 }
      seg := { boot.seg with cs := 0x1000, ss := 0x2000 }
      flags := { boot.flags with ifl := true }
      ip := 0x0010 } 0x0000 0x0084 [0x00, 0x02, 0x00, 0x30]) [0xCD, 0x21]
    (fun t => t.readWord 0x2000 0x00FE == 0xF202 && t.readWord 0x2000 0x00FC == 0x1000 &&
    t.readWord 0x2000 0x00FA == 0x0012 && t.seg.cs == 0x3000 && t.gpr.sp == 0x00FA && t.flags.image == 0xF002 &&
    t.ip == 0x0200) = true := by decide +kernel

/-- VX2. -/
theorem test_int3 : shows (poke { boot with
      gpr := { boot.gpr with sp := 0x0100 }
      seg := { boot.seg with ss := 0x2000 } } 0x0000 0x000C [0x00, 0x03, 0x40, 0x00]) [0xCC]
    (fun t => t.readWord 0x2000 0x00FE == 0xF002 && t.readWord 0x2000 0x00FC == 0x0000 &&
    t.readWord 0x2000 0x00FA == 0x0101 && t.seg.cs == 0x0040 && t.gpr.sp == 0x00FA &&
    t.ip == 0x0300) = true := by decide +kernel

/-- VX3. -/
theorem test_into : shows (poke { boot with
      gpr := { boot.gpr with sp := 0x0100 }
      seg := { boot.seg with ss := 0x2000 }
      flags := { boot.flags with of := true, ifl := true } } 0x0000 0x0010 [0x00, 0x04, 0x40, 0x00]) [0xCE]
    (fun t => t.readWord 0x2000 0x00FE == 0xFA02 && t.readWord 0x2000 0x00FC == 0x0000 &&
    t.readWord 0x2000 0x00FA == 0x0101 && t.seg.cs == 0x0040 && t.gpr.sp == 0x00FA && t.flags.image == 0xF802 &&
    t.ip == 0x0400) = true := by decide +kernel

/-- VX5. -/
theorem test_iret : shows (poke { boot with
      gpr := { boot.gpr with sp := 0x00FA }
      seg := { boot.seg with ss := 0x2000 } } 0x2000 0x00FA [0x12, 0x00, 0x00, 0x10, 0x02, 0xF2]) [0xCF]
    (fun t => t.seg.cs == 0x1000 && t.gpr.sp == 0x0100 && t.flags.image == 0xF202 &&
    t.ip == 0x0012) = true := by decide +kernel

/-- VP1. -/
theorem test_clc : shows { boot with flags := { boot.flags with cf := true } } [0xF8]
    (fun t => !t.flags.cf && t.ip == 0x0101) = true := by decide +kernel

/-- VP3. -/
theorem test_cmc : shows { boot with flags := { boot.flags with cf := false } } [0xF5]
    (fun t => t.flags.cf && t.ip == 0x0101) = true := by decide +kernel

/-- VP4. -/
theorem test_stc : shows boot [0xF9]
    (fun t => t.flags.cf && t.ip == 0x0101) = true := by decide +kernel

/-- VP5. -/
theorem test_cld : shows { boot with flags := { boot.flags with df := true } } [0xFC]
    (fun t => !t.flags.df && t.ip == 0x0101) = true := by decide +kernel

/-- VP6. -/
theorem test_std : shows boot [0xFD]
    (fun t => t.flags.df && t.ip == 0x0101) = true := by decide +kernel

/-- VP7. -/
theorem test_cli : shows { boot with flags := { boot.flags with ifl := true } } [0xFA]
    (fun t => !t.flags.ifl && t.ip == 0x0101) = true := by decide +kernel

/-- VP8. -/
theorem test_sti : shows boot [0xFB]
    (fun t => t.flags.ifl && t.ip == 0x0101 && t.intInhibit) = true := by decide +kernel

/-- VP15. -/
theorem test_hlt : shows boot [0xF4]
    (fun t => t.ip == 0x0101 && t.halted) = true := by decide +kernel

/-- VX20. -/
theorem test_wait_inactive : shows { boot with
      gpr := { boot.gpr with sp := 0x0100 }
      inputs := [⟨.inactive, false, none, false, []⟩] } [0x9B]
    (fun t => t.ip == 0x0100) = true := by decide +kernel

/-- VX21. -/
theorem test_wait_active : shows { boot with
      gpr := { boot.gpr with sp := 0x0100 }
      inputs := [⟨.inactive, false, none, true, []⟩] } [0x9B]
    (fun t => t.ip == 0x0101) = true := by decide +kernel

/-- VP9. -/
theorem test_esc : shows (poke { boot with seg := { boot.seg with ds := 0x0100 } } 0x0100 0x0200 [0x11, 0x22])
    [0xDD, 0x06, 0x00, 0x02]
    (fun t => t.readWord 0x0100 0x0200 == 0x2211 && t.gpr.ax == 0x0000 && t.ip == 0x0104) = true := by decide +kernel

/-- VP11. -/
theorem test_lock_xchg : shows (poke { boot with
      gpr := { boot.gpr with ax := 0x1111, bx := 0x0010 }
      seg := { boot.seg with ds := 0x0100 } } 0x0100 0x0010 [0x22, 0x22]) [0xF0, 0x87, 0x07]
    (fun t => t.readWord 0x0100 0x0010 == 0x1111 && t.gpr.ax == 0x2222 && t.ip == 0x0103) = true := by decide +kernel

/-- VP13. -/
theorem test_last_override_wins : shows (poke (poke (poke { boot with
      gpr := { boot.gpr with bx := 0x0010 }
      seg := { boot.seg with ss := 0x0200, es := 0x0300, ds := 0x0400 } } 0x0200 0x0010 [0x01]) 0x0300 0x0010 [0x02])
    0x0400 0x0010 [0x03]) [0x36, 0x26, 0x8A, 0x07]
    (fun t => t.gpr.ax == 0x0002 && t.ip == 0x0104) = true := by decide +kernel

/-- VX6: the divide error pushes three words and clears IF and TF. (The pushed flags hold free values, so the kernel cannot
evaluate memory after it.) -/
theorem test_divide_error :
    shows { boot with gpr := { boot.gpr with ax := 0x1234, sp := 0x0100 }, flags := { boot.flags with ifl := true } }
      [0xF6, 0xF3] (fun t => t.gpr.sp == 0x00FA && !t.flags.ifl && !t.flags.tf) = true := by decide +kernel

/-- VX10. -/
theorem test_nmi : shows (poke { boot with
      gpr := { boot.gpr with sp := 0x0100 }
      seg := { boot.seg with ss := 0x2000 }
      flags := { boot.flags with ifl := false }
      inputs := [⟨.inactive, true, none, true, []⟩] } 0x0000 0x0008 [0x00, 0x06, 0x40, 0x00]) [0x90]
    (fun t => t.readWord 0x2000 0x00FE == 0xF002 && t.readWord 0x2000 0x00FC == 0x0000 &&
    t.readWord 0x2000 0x00FA == 0x0101 && t.seg.cs == 0x0040 && t.gpr.sp == 0x00FA &&
    t.ip == 0x0600) = true := by decide +kernel

/-- VX11. -/
theorem test_intr_masked : shows (poke { boot with
      gpr := { boot.gpr with sp := 0x0100 }
      seg := { boot.seg with ss := 0x2000 }
      flags := { boot.flags with ifl := false }
      inputs := [⟨.inactive, false, some 0x20, true, []⟩] } 0x0000 0x0080 [0x00, 0x07, 0x40, 0x00]) [0x90]
    (fun t => t.seg.cs == 0x0000 && t.gpr.sp == 0x0100 && t.ip == 0x0101) = true := by decide +kernel

/-- VX15. -/
theorem test_single_step : shows (poke { boot with
      gpr := { boot.gpr with sp := 0x0100 }
      seg := { boot.seg with ss := 0x2000 }
      flags := { boot.flags with tf := true, ifl := true } } 0x0000 0x0004 [0x00, 0x08, 0x40, 0x00]) [0x90]
    (fun t => t.readWord 0x2000 0x00FE == 0xF302 && t.readWord 0x2000 0x00FC == 0x0000 &&
    t.readWord 0x2000 0x00FA == 0x0101 && t.seg.cs == 0x0040 && t.gpr.sp == 0x00FA && t.flags.image == 0xF002 &&
    t.ip == 0x0800) = true := by decide +kernel

/-- VX22. -/
theorem test_intr_inside_wait : shows (poke { boot with
      gpr := { boot.gpr with sp := 0x0100 }
      seg := { boot.seg with ss := 0x2000 }
      flags := { boot.flags with ifl := true }
      inputs := [⟨.inactive, false, some 0x20, false, []⟩] } 0x0000 0x0080 [0x00, 0x07, 0x40, 0x00]) [0x9B]
    (fun t => t.readWord 0x2000 0x00FE == 0xF202 && t.readWord 0x2000 0x00FC == 0x0000 &&
    t.readWord 0x2000 0x00FA == 0x0100 && t.seg.cs == 0x0040 && t.gpr.sp == 0x00FA &&
    t.ip == 0x0700) = true := by decide +kernel

/-- VT13, VT24, VT31, VT43, VA8, VA52, VL25, VS17: what has no meaning is refused by name. -/
theorem test_refusals :
    refusal boot [0x8E, 0xC8] = some .csLoad ∧ refusal boot [0x0F] = some .csLoad ∧
    refusal boot [0x8D, 0xC0] = some (.undecodable (.registerOperand 0x8D 0xC0)) ∧
    refusal { boot with gpr := { boot.gpr with dx := 0xFFFF } } [0xED] = some .wordPortFFFF ∧
    refusal boot [0x82, 0xC9, 0x01] = some (.undecodable (.unassignedSecond 0x82 0xC9)) ∧
    refusal boot [0xD4, 0x10] = some (.undecodable (.adjustBase 0x10)) ∧
    refusal boot [0xD0, 0xF0] = some (.undecodable (.unassignedSecond 0xD0 0xF0)) ∧
    refusal boot [0xF3, 0x90] = some .repBeforeNonString := by decide +kernel

/-- A byte written inside the prefetch window and fetched with no transfer between (20 R54). -/
theorem test_stale_prefetch : refusal { boot with staleCode := [0x0101] } [0xB0, 0x05] = some .stalePrefetch := by
  decide +kernel

/-- A store into the six bytes after the instruction is remembered, one further ahead is not (20 R54). -/
theorem test_store_ahead :
    (shows { boot with gpr := { boot.gpr with bx := 0x0107 } } [0x88, 0x07] (fun t => t.staleCode == [0x0107]) &&
      shows { boot with gpr := { boot.gpr with bx := 0x0108 } } [0x88, 0x07] (fun t => t.staleCode == [])) = true := by
  decide +kernel

/-- A repetition with an INTR due stops after its first element with IP at the prefix (43 R161, 60 R235). -/
theorem test_rep_interrupted :
    shows { boot with
        gpr := { boot.gpr with cx := 0x0003 }, flags := { boot.flags with ifl := true }
        inputs := [⟨.inactive, false, some 0x20, true, []⟩] } [0xF3, 0xAC]
      (fun t => t.gpr.cx == 2 && t.gpr.si == 1 && t.readWord 0x0000 0xFFFA == 0x0100) = true := by decide +kernel

/-- The first step after reset runs a table word placed where it fetches (log 4). -/
theorem test_withFetchWord :
    (match step (State.reset.withFetchWord 16 0x83C0) with
      | .next t => t == { State.reset.withFetchWord 16 0x83C0 with
          ip := 0x0003, flags := t.flags, justReset := false } && t.flags.zf
      | _ => false) = true := by decide +kernel

/-- RESET in an instruction, here STD, aborts it: CS:IP = FFFF:0000 and DF = 0 (70 R260). -/
theorem test_reset_in_instruction : shows (given (record .inInstr) boot) [0xFD]
    (fun t => t.seg.cs == 0xFFFF && t.ip == 0x0000 && !t.flags.df && t.justReset && t.inputs == []) = true := by
  decide +kernel

/-- RESET in the second element of a repetition: one element is done, the next step resets (70 R260, 43 R161). -/
theorem test_reset_in_element :
    shows (given (record .inactive) (given (record .inInstr) { boot with gpr := { boot.gpr with ax := 0x0042, cx := 0x0003 } }))
      [0xF3, 0xAA] (fun t => t.gpr.cx == 0x0002 && t.ip == 0x0100 && t.input.reset == .atStart) = true := by
  decide +kernel

/-- RESET at the boundary where an NMI is being taken (70 R260). -/
theorem test_reset_at_boundary : shows (given ⟨.atBoundary, true, none, true, []⟩ boot) [0xFD]
    (fun t => t.seg.cs == 0xFFFF && t.ip == 0x0000 && !t.nmiPending && t.freeCount == 14) = true := by
  decide +kernel

/-- An NMI edge in the first instruction after reset has no meaning; after it, it is taken (93 U15). -/
theorem test_nmi_before_first_boundary :
    refusal (given ⟨.inactive, true, none, true, []⟩ State.reset) [0x90] = some .nmiBeforeFirstBoundary ∧
    refusal (given ⟨.inactive, true, none, true, []⟩ { State.reset with justReset := false }) [0x90] = none := by
  decide +kernel

/-- TEST never active: a WAIT goes on for ever with the host's list used up (70 R263). -/
theorem test_wait_never_ends : shows { boot with testLevel := false } [0x9B]
    (fun t => t.ip == 0x0100 && t.waiting && shows t [0x9B] (fun u => u == t)) = true := by decide +kernel

/-- LOCK WAIT with TEST inactive: other agents wait at the boundary between two looks, also where an INTR is taken there; once
TEST is active they are let in (45 R218, R220; log 11). -/
theorem test_locked_wait :
    shows (given ⟨.inactive, false, none, false, [(0x0300, 0x55)]⟩ boot) [0xF0, 0x9B]
      (fun t => t.mem.read 0x0300 == 0x00 && t.input.writes == [(0x0300, 0x55)] && t.ip == 0x0100 &&
        shows t [0xF0, 0x9B] (fun u => u.mem.read 0x0300 == 0x55 && u.ip == 0x0102 && u.pfx == PrefixState.none)) = true ∧
    shows (given ⟨.inactive, false, some 0x20, false, [(0x0300, 0x55)]⟩ { boot with flags := { boot.flags with ifl := true } })
      [0xF0, 0x9B] (fun t => t.mem.read 0x0300 == 0x00 && t.readWord 0x0000 0xFFFA == 0x0100) = true ∧
    shows (given ⟨.inactive, false, none, false, [(0x0300, 0x55)]⟩ boot) [0x9B] (fun t => t.mem.read 0x0300 == 0x55) = true := by
  decide +kernel

/-- Another agent's write lands at the boundary, modulo 2^20; under LOCK it waits for the end of the repetition (20 R51, R53). -/
theorem test_other_agents :
    shows (given { HostInput.quiet with writes := [(0x100300, 0x55)] } boot) [0x90]
      (fun t => t.mem.read 0x0300 == 0x55) = true ∧
    shows (given { HostInput.quiet with writes := [(0x0001, 0x55)] } { boot with gpr := { boot.gpr with cx := 0x0002 } })
      [0xF3, 0xAC] (fun t => t.gpr.ax == 0x0055) = true ∧
    shows (given { HostInput.quiet with writes := [(0x0001, 0x55)] } { boot with gpr := { boot.gpr with cx := 0x0002 } })
      [0xF0, 0xF3, 0xAC] (fun t => t.gpr.ax == 0x0000 && t.mem.read 0x0001 == 0x55) = true := by
  decide +kernel

/-! ### Witnesses: the hypotheses of the statements can be met -/

/-- The outcome is a next state. -/
def isNext (o : Host.Outcome State Fault Refusal) : Bool :=
  match o with
  | .next _ => true
  | .fault _ => false
  | .refused _ => false

/-- An outcome that is a next state has one. -/
theorem exists_of_isNext {o : Host.Outcome State Fault Refusal} (h : isNext o = true) : ∃ t, o = .next t := by
  cases o with
  | next t => exact ⟨t, rfl⟩
  | fault f => cases h
  | refused r => cases h

/-- A state with bytes in memory: code 89 D8 at CS:IP, a word at offset FFFF and 0 of the data segment. -/
def busy : State :=
  poke (poke { boot with gpr := ⟨0x1234, 0x0003, 0xFFFF, 0xFFFF, 0x0001, 0x0100, 0xFFFF, 0x8000⟩ } 0x1000 0xFFFF [0x34])
    0x0000 0x0100 [0x89, 0xD8]

/-- The hypothesis of the statements that ask for canonical memory only: InterruptSequenceEffects, MixedWidthViews,
StackPrimitives, MovCopiesSource, PopTakesWord, XchgSwapsOperands, AddAdcSumAndFlags, SubSbbDifferenceAndFlags, AndOrXorResultAndFlags,
TestNotEffects, CallPushesReturn, IretUndoesInterrupt. -/
theorem witness_canonicalMemory : busy.mem.wf = true ∧ busy.mem ≠ [] := by decide +kernel

theorem witness_InterruptSequenceEffects : busy.mem.wf = true := by decide +kernel
theorem witness_MixedWidthViews : busy.mem.wf = true := by decide +kernel
theorem witness_StackPrimitives : busy.mem.wf = true := by decide +kernel
theorem witness_MovCopiesSource : busy.mem.wf = true := by decide +kernel
theorem witness_PopTakesWord : busy.mem.wf = true ∧ RegField.axAl ≠ .spAh := by decide +kernel
theorem witness_XchgSwapsOperands : busy.mem.wf = true := by decide +kernel
theorem witness_AddAdcSumAndFlags : busy.mem.wf = true := by decide +kernel
theorem witness_SubSbbDifferenceAndFlags : busy.mem.wf = true := by decide +kernel
theorem witness_AndOrXorResultAndFlags : busy.mem.wf = true := by decide +kernel
theorem witness_TestNotEffects : busy.mem.wf = true := by decide +kernel
theorem witness_CallPushesReturn : busy.mem.wf = true := by decide +kernel
theorem witness_IretUndoesInterrupt : busy.mem.wf = true := by decide +kernel

theorem witness_DecodeOfEncode : (Instr.addRmImm (.mem (.disp8 .bp 0x00)) (.s1w1 0x80)).wellFormed = true := by decide

theorem witness_EncodeOfDecode :
    decode [0x83, 0x46, 0x00, 0x80, 0x90] = .ok (.addRmImm (.mem (.disp8 .bp 0x00)) (.s1w1 0x80), [0x90]) := by rfl

/-- Each clause at the ends of its lists. -/
theorem witness_EncodingsWithoutMeaning :
    ((0x60 : Byte) ∈ ([0x60, 0xF1] : List Byte)) ∧ (0x0F : Byte).extractLsb' 3 3 = 0b001 ∧
    (0xF7 : Byte).extractLsb' 3 3 = 0b110 ∧ (0x3F : Byte).extractLsb' 3 3 = 0b111 ∧
    (0x08 : Byte).extractLsb' 3 3 ≠ 0b000 ∧ (0xF8 : Byte).getLsbD 5 = true ∧ (0x0B : Byte) ≠ 0x0A ∧
    (0xD8 : Byte).extractLsb' 6 2 = 0b11 ∧ (0xD8 : Byte).extractLsb' 3 3 = 0b011 := by decide

theorem witness_StepKeepsInvariant : busy.Inv ∧ ∃ t, step busy = .next t :=
  ⟨⟨by decide +kernel, by decide⟩, exists_of_isNext (by decide +kernel)⟩

/-- One instruction for each register, and a divide error for CS. -/
theorem witness_SegmentRegisterWriters :
    (∃ t, exec (.les .axAl (.direct 0xFFFF)) busy = .next t) ∧ (∃ t, exec (.popSreg .ss) busy = .next t) ∧
    (∃ t, exec (.movSregRm .ds (.reg .axAl)) busy = .next t) ∧ (∃ t, exec .iret busy = .next t) ∧
    (∃ t, exec (.div .byte (.reg .spAh)) boot = .next t) ∧ divideErrorDue (.div .byte (.reg .spAh)) boot = true :=
  ⟨⟨_, rfl⟩, ⟨_, rfl⟩, ⟨_, rfl⟩, ⟨_, rfl⟩, exists_of_isNext (by decide +kernel), by decide +kernel⟩

theorem witness_AffectedFlagsTable :
    ((∃ t, exec .clc busy = .next t) ∧ divideErrorDue .clc busy = false) ∧
    ((∃ t, exec (.div .byte (.reg .spAh)) boot = .next t) ∧ divideErrorDue (.div .byte (.reg .spAh)) boot = true) ∧
    ((∃ t, exec .into boot = .next t) ∧ boot.flags.of = false) ∧
    ∃ t, exec .into { boot with flags := { boot.flags with of := true } } = .next t :=
  ⟨⟨⟨_, rfl⟩, rfl⟩, ⟨exists_of_isNext (by decide +kernel), by decide +kernel⟩, ⟨⟨_, rfl⟩, rfl⟩, ⟨_, rfl⟩⟩

theorem witness_HiddenStateWriters :
    (∃ t, exec .hlt busy = .next t ∧ t.halted = true) ∧ (∃ t, exec .sti busy = .next t) ∧
    (∃ t, exec .lock busy = .next t) ∧ (∃ t, exec (.inVariable .byte) busy = .next t) ∧
    (∃ t, exec (.outFixed .word 0xFF) busy = .next t) ∧ (∃ t, exec .wait busy = .next t) ∧
    ∃ t, exec (.movs .byte) { busy with pfx := ⟨none, some true, false, 1⟩ } = .next t :=
  ⟨⟨_, rfl, rfl⟩, ⟨_, rfl⟩, ⟨_, rfl⟩, ⟨_, rfl⟩, ⟨_, rfl⟩, ⟨_, rfl⟩, exists_of_isNext (by decide +kernel)⟩

/-- The byte right after the instruction is stale, its own are not; and the three ways a first instruction may end. -/
theorem witness_StepRunsDecoded :
    let s : State := { busy with staleCode := [0x0102] }
    s.Runs ∧ (given (record .atBoundary) s).Runs ∧ s.halted = false ∧
    decode s.codeBytes = .ok (.movRmReg .fromReg .word .bxBl (.reg .axAl), [0, 0, 0, 0]) ∧
    (∀ a ∈ s.codeAddrs (6 - 4), a ∉ s.staleCode) ∧
    (Instr.movRmReg .fromReg .word .bxBl (.reg .axAl)).actsAsPrefix = false ∧
    boot.justReset = false ∧ (given (record .atBoundary) State.reset).input.reset ≠ .inactive ∧
    (State.reset.nmiPending = false ∧ State.reset.input.nmiEdge = false) :=
  ⟨.inl rfl, .inr rfl, rfl, by decide +kernel, by decide +kernel, rfl, rfl, by decide, rfl, rfl⟩

theorem witness_PrefixesActOnNext :
    (decode (poke boot 0 0x0100 [0x3E]).codeBytes = .ok (.seg .ds, [0, 0, 0, 0, 0]) ∧
      decode (poke boot 0 0x0100 [0xF3]).codeBytes = .ok (.rep true, [0, 0, 0, 0, 0]) ∧
      decode (poke boot 0 0x0100 [0xF0]).codeBytes = .ok (.lock, [0, 0, 0, 0, 0]) ∧
      (∀ a ∈ boot.codeAddrs (6 - 5), a ∉ boot.staleCode)) ∧
    (decode (poke boot 0 0x0100 [0xA4]).codeBytes = .ok (.movs .byte, [0, 0, 0, 0, 0]) ∧
      (Instr.movs .byte).actsAsPrefix = false ∧ (Instr.movs .byte).isStringPrimitive = true) ∧
    (decode (poke boot 0 0x0100 [0x90]).codeBytes = .ok (.xchgAccReg .axAl, [0, 0, 0, 0, 0]) ∧
      (Instr.xchgAccReg .axAl).actsAsPrefix = false ∧ boot.pfx.rep = none ∧
      (Instr.xchgAccReg .axAl).isStringPrimitive = false ∧
      ({ boot with pfx := ⟨none, some false, false, 1⟩ } : State).pfx.rep ≠ none) := by decide +kernel

theorem witness_StepRefusesUnknownBytes :
    (boot.input.reset ≠ .atStart ∧ (given (record .inInstr) boot).input.reset ≠ .atStart ∧ boot.halted = false) ∧
    decode (poke boot 0 0x0100 [0xF1]).codeBytes = .error (.unassigned 0xF1) ∧
    (decode (poke boot 0 0x0100 [0x89, 0xD8]).codeBytes =
        .ok (.movRmReg .fromReg .word .bxBl (.reg .axAl), [0, 0, 0, 0]) ∧
      ∃ a ∈ ({ boot with staleCode := [0x0101] } : State).codeAddrs (6 - 4), a ∈ [0x0101]) ∧
    (State.reset.justReset = true ∧ State.reset.input.reset = .inactive ∧
      ({ State.reset with nmiPending := true } : State).nmiPending = true ∧
      (given ⟨.inactive, true, none, true, []⟩ State.reset).input.nmiEdge = true) := by decide +kernel

/-- RESET at each place; a string store and a port read it aborts. -/
theorem witness_ResetInputResets :
    (given ⟨.atStart, true, some 0xFF, false, [(0xFFFFF, 1)]⟩ busy).input.reset = .atStart ∧
    ((given (record .inInstr) { busy with halted := true }).input.reset = .inInstr ∧
      ({ busy with halted := true } : State).halted = true) ∧
    ((given (record .inInstr) busy).input.reset = .inInstr ∧ busy.halted = false) ∧
    (∃ u, exec (.stos .word) { busy with pfx := { busy.pfx with rep := none } } = .next u) ∧
    (∃ u, exec (.inVariable .byte) { busy with pfx := { busy.pfx with rep := none } } = .next u) ∧
    (given ⟨.atBoundary, true, none, true, []⟩ busy).input.reset = .atBoundary ∧
    (given ⟨.atBoundary, true, none, true, []⟩ busy).wordsDue = 3 :=
  ⟨rfl, ⟨rfl, rfl⟩, ⟨rfl, rfl⟩, ⟨_, rfl⟩, ⟨_, rfl⟩, rfl, rfl⟩

theorem witness_HaltedStep :
    let s : State := { boot with halted := true }
    (s.input.reset = .inactive ∧ s.halted = true) ∧ (s.Runs ∧ (given (record .atBoundary) s).Runs) ∧
    ({ s with nmiPending := true } : State).nmiPending = true ∧
    (given ⟨.inactive, true, none, true, []⟩ s).input.nmiEdge = true ∧
    (given ⟨.inactive, false, some 0xFF, true, []⟩ { s with flags := { s.flags with ifl := true } }).input.intr = some 0xFF ∧
    (given ⟨.inactive, false, some 0x00, true, []⟩ s).flags.ifl = false ∧ s.input.intr = none ∧ s.input.nmiEdge = false ∧
    s.input.writes = [] :=
  ⟨⟨rfl, rfl⟩, ⟨.inl rfl, .inr rfl⟩, rfl, rfl, rfl, rfl, rfl, rfl, rfl⟩

theorem witness_BoundaryPriority :
    let s : State := { busy with tfAtStart := true, flags := { busy.flags with ifl := true } }
    s.input.reset = .inactive ∧ ({ s with intInhibit := true } : State).intInhibit = true ∧ s.intInhibit = false ∧
    (given ⟨.inactive, true, some 0xFF, true, []⟩ s).input.nmiEdge = true ∧ s.nmiPending = false ∧ s.input.nmiEdge = false ∧
    s.flags.ifl = true ∧ (given ⟨.inactive, false, some 0xFF, true, []⟩ s).input.intr = some 0xFF ∧ s.input.intr = none ∧
    boot.flags.ifl = false ∧ s.input.writes = [] :=
  ⟨rfl, rfl, rfl, rfl, rfl, rfl, rfl, rfl, rfl, rfl, rfl⟩

theorem witness_EffectiveAddressTable :
    busy.pfx.seg = none ∧ ({ busy with pfx := ⟨some .es, none, false, 1⟩ } : State).pfx.seg = some .es := by
  exact ⟨rfl, rfl⟩

theorem witness_SegmentRegisterLoads : SReg.ss ≠ .cs ∧ SReg.ds ≠ .cs := by decide

theorem witness_PushStoresWord :
    busy.mem.wf = true ∧ RM.reg .bpCh ≠ .reg .spAh ∧ RM.mem (.noDisp .bx) ≠ .reg .spAh ∧ RegField.bpCh ≠ .spAh := by
  decide +kernel

/-- A word at port FFFF, and the ports next to it; both bytes given, and the low one alone. -/
theorem witness_InTakesPortBytes :
    (Instr.inVariable .word = .inVariable .word ∧ (0xFFFF : Word) = busy.gpr.dx) ∧
    (∃ port : Byte, Instr.inFixed .word 0xFF = .inFixed .word port ∧ (0x00FF : Word) = port.setWidth 16) ∧
    ¬ ((0xFFFE : Word) = 0xFFFF ∧ Width.word = .word) ∧ ¬ ((0xFFFF : Word) = 0xFFFF ∧ Width.byte = .word) ∧
    ({ busy with portIn := [0x34, 0x12] } : State).portIn = 0x34 :: 0x12 :: [] ∧
    ({ busy with portIn := [0x34] } : State).portIn = 0x34 :: [] :=
  ⟨⟨rfl, rfl⟩, ⟨0xFF, rfl, rfl⟩, by decide, by decide, rfl, rfl⟩

theorem witness_OutRecordsAccumulator : boot.gpr.dx ≠ 0xFFFF ∧ busy.gpr.dx = 0xFFFF := by decide +kernel

theorem witness_IncDecNegResultAndFlags :
    busy.mem.wf = true ∧
    (∃ rm, Instr.incRm .byte (.mem (.noDisp .bx)) = .incRm .byte rm ∧ busy.place (.mem (.noDisp .bx)) = busy.place rm) ∧
    (∃ reg, Instr.incReg .spAh = .incReg reg ∧ Width.word = .word ∧ Place.reg .spAh = .reg reg) ∧
    (∃ rm, Instr.decRm .word (.reg .axAl) = .decRm .word rm ∧ Place.reg .axAl = busy.place rm) ∧
    (∃ reg, Instr.decReg .diBh = .decReg reg ∧ Width.word = .word ∧ Place.reg .diBh = .reg reg) ∧
    ∃ rm, Instr.neg .byte (.reg .diBh) = .neg .byte rm ∧ Place.reg .diBh = busy.place rm :=
  ⟨by decide +kernel, ⟨_, rfl, rfl⟩, ⟨_, rfl, rfl, rfl⟩, ⟨_, rfl, rfl⟩, ⟨_, rfl, rfl, rfl⟩, ⟨_, rfl, rfl⟩⟩

theorem witness_DaaCorrectsPackedSums :
    ({ boot with gpr := { boot.gpr with ax := 0x0099 } } : State).gpr.getByte .axAl = BitVec.ofNat 8 (16 * 9 + 9) := by
  decide

/-- The largest quotients that fit, and IDIV's smallest. -/
theorem witness_DivideGivesQuotient :
    divideErrorDue (.div .byte (.reg .bxBl)) { boot with gpr := ⟨0x0FFF, 0, 0, 0x0010, 0, 0, 0, 0⟩ } = false ∧
    divideErrorDue (.div .word (.reg .bxBl)) { boot with gpr := ⟨0xFFFF, 0, 0x000F, 0x0010, 0, 0, 0, 0⟩ } = false ∧
    divideErrorDue (.idiv .byte (.reg .bxBl)) { boot with gpr := ⟨0xFF81, 0, 0, 0x0001, 0, 0, 0, 0⟩ } = false ∧
    divideErrorDue (.idiv .word (.reg .bxBl)) { boot with gpr := ⟨0x8001, 0, 0xFFFF, 0x0001, 0, 0, 0, 0⟩ } = false := by
  decide

/-- The smallest quotients that do not fit, IDIV's largest negative one, and a divisor of 0. -/
theorem witness_DivideErrorTakesInterrupt0 :
    boot.mem.wf = true ∧
    divideErrorDue (.div .byte (.reg .bxBl)) { boot with gpr := ⟨0x1000, 0, 0, 0x0010, 0, 0, 0, 0⟩ } = true ∧
    divideErrorDue (.div .word (.reg .bxBl)) boot = true ∧
    divideErrorDue (.idiv .byte (.reg .bxBl)) { boot with gpr := ⟨0xFF80, 0, 0, 0x0001, 0, 0, 0, 0⟩ } = true ∧
    divideErrorDue (.idiv .word (.reg .bxBl)) { boot with gpr := ⟨0x8000, 0, 0, 0x0001, 0, 0, 0, 0⟩ } = true ∧
    (∃ w rm, Instr.div .word (.reg .bxBl) = .div w rm) ∧ ∃ w rm, Instr.idiv .byte (.reg .bxBl) = .idiv w rm :=
  ⟨by decide, by decide, by decide, by decide, by decide, ⟨_, _, rfl⟩, ⟨_, _, rfl⟩⟩

theorem witness_AamAadResults : (0x0A : Byte) ≠ 0 ∧ (0x01 : Byte) ≠ 0 ∧ (0xFF : Byte) ≠ 0 ∧ boot.mem.wf = true := by decide

/-- Counts 0 and 255 in CL. -/
theorem witness_ShiftsByAnyCount :
    boot.mem.wf = true ∧ (boot.gpr.getByte .cxCl).toNat = 0 ∧
    (({ boot with gpr := { boot.gpr with cx := 0x00FF } } : State).gpr.getByte .cxCl).toNat ≠ 0 := by decide

theorem witness_RotatesByAnyCount :
    boot.mem.wf = true ∧ (boot.gpr.getByte .cxCl).toNat = 0 ∧
    (({ boot with gpr := { boot.gpr with cx := 0x0009 } } : State).gpr.getByte .cxCl).toNat ≠ 0 := by decide

theorem witness_StringElements : busy.mem.wf = true ∧ busy.pfx.rep = none := by decide +kernel

/-- A repetition with `cx` elements to do. -/
def repeating (cx : Word) (z : Bool) : State :=
  { boot with gpr := { boot.gpr with cx := cx }, pfx := ⟨none, some z, false, 1⟩ }

/-- CX = 0; CX = 1, where the first element is the last; CX = 2, where it is not; another agent and an INTR with IF = 0 at the
boundary between. -/
theorem witness_RepUnrolls :
    let h : HostInput := ⟨.inactive, false, some 0xFF, true, [(0x0000, 1)]⟩
    (Instr.cmps .word).isStringPrimitive = true ∧ (repeating 0 true).pfx.rep = some true ∧ (repeating 2 true).Quiet ∧
    (repeating 0 true).gpr.cx = 0 ∧ (repeating 1 true).gpr.cx ≠ 0 ∧ (repeating 1 true).gpr.cx - 1 = 0 ∧
    (repeating 2 true).gpr.cx - 1 ≠ 0 ∧ ¬ (given h (repeating 2 true)).Due ∧
    (given h (repeating 2 true)).input.reset ≠ .atBoundary ∧ (given h (repeating 2 true)).pastBoundary.Runs :=
  ⟨rfl, rfl, ⟨rfl, rfl, rfl⟩, rfl, by decide, by decide, by decide,
    by rintro (h | h | ⟨h, -⟩ | h) <;> exact absurd h (by decide), by decide, .inl rfl⟩

/-- CX = 2, with one prefix byte and with two, and each thing that stops it. -/
theorem witness_RepStopsBetweenElements :
    let s : State := repeating 2 true
    let on : State := { s with flags := { s.flags with ifl := true } }
    (Instr.cmps .byte).isStringPrimitive = true ∧ s.pfx.rep = some true ∧
    (∃ e, exec (.cmps .byte) { s with pfx := { s.pfx with rep := none } } = .next e ∧ e.flags.zf = true) ∧
    s.gpr.cx ≠ 0 ∧ s.gpr.cx ≠ 1 ∧ s.pfx.count < 2 ∧
    2 ≤ ({ s with pfx := { s.pfx with count := 2 } } : State).pfx.count ∧
    (given (record .atBoundary) s).input.reset = .atBoundary ∧
    ((given ⟨.inactive, true, none, true, []⟩ s).Due ∧ (given ⟨.inactive, true, none, true, []⟩ s).input.nmiEdge = true ∧
      (given ⟨.inactive, true, none, true, []⟩ s).input.reset = .inactive) ∧
    ((given ⟨.inactive, false, some 0xFF, true, []⟩ on).Due ∧ on.flags.ifl = true ∧
      (given ⟨.inactive, false, some 0xFF, true, []⟩ on).input.intr = some 0xFF) ∧
    ({ s with tfAtStart := true } : State).Due ∧ (s.intInhibit = false ∧ s.justReset = false ∧ s.waiting = false) ∧
    (given (record .inactive) (given (record .atStart) s)).pastBoundary.input.reset = .atStart ∧
    (given (record .inactive) (given (record .inInstr) s)).pastBoundary.input.reset = .inInstr ∧
    ¬ (given (record .inactive) (given (record .inInstr) s)).Due :=
  ⟨rfl, rfl, ⟨_, rfl, by decide +kernel⟩, by decide, by decide, by decide, by decide, rfl, ⟨.inr (.inl rfl), rfl, rfl⟩,
    ⟨.inr (.inr (.inl ⟨rfl, _, rfl⟩)), rfl, rfl⟩, .inr (.inr (.inr rfl)), ⟨rfl, rfl, rfl⟩, rfl, rfl,
    by rintro (h | h | ⟨h, -⟩ | h) <;> exact absurd h (by decide)⟩

/-- The most elements there can be, none, and three whose source and destination share no byte. -/
theorem witness_RepRunsToTheEnd :
    (repeating 0xFFFF false).mem.wf = true ∧ (repeating 0xFFFF false).pfx.rep = some false ∧
    (repeating 0xFFFF false).Quiet ∧ 0xFFFE < (repeating 0xFFFF false).gpr.cx.toNat ∧ (repeating 0 false).gpr.cx.toNat = 0 ∧
    (let s : State := { repeating 3 false with seg := ⟨0x0001, 0, 0, 0⟩ }
      ∀ a ∈ s.dstArea .word, a ∉ s.srcArea .word) ∧
    (repeating 3 false).dstArea .byte = [0x00000, 0x00001, 0x00002] :=
  ⟨rfl, rfl, ⟨rfl, rfl, rfl⟩, by decide, rfl, by decide +kernel, by decide +kernel⟩

theorem witness_SoftwareInterrupts :
    busy.mem.wf = true ∧ ({ busy with flags := { busy.flags with of := true } } : State).flags.of = true ∧
    busy.flags.of = false := by decide +kernel

theorem witness_ProcessorControlEffects :
    let s : State := { poke boot 0 0x0100 [0x9B] with testLevel := false }
    boot.input.test = true ∧ (given ⟨.inactive, false, none, false, []⟩ boot).input.test = false ∧
    decode s.codeBytes = .ok (.wait, [0, 0, 0, 0, 0]) ∧ (∀ a ∈ s.codeAddrs (6 - 5), a ∉ s.staleCode) ∧
    s.halted = false ∧ s.nmiPending = false ∧ s.inputs = [] ∧ s.testLevel = false := by decide +kernel

/-- A write with and without LOCK, one landing twice on an address, and a run without other agents. -/
theorem witness_MemoryWriters :
    let h : HostInput := { HostInput.quiet with writes := [(0x100001, 1), (0x00001, 2)] }
    busy.pfx.rep = none ∧ (∃ t, exec (.stos .word) busy = .next t) ∧ storesOf (.stos .word) busy = [0x08000, 0x08001] ∧
    (given h busy).pfx.lock = false ∧ (given h busy).mem.wf = true ∧
    (given h busy).input.writes = [(0x100001, 1)] ++ (0x00001, 2) :: [] ∧ (given h busy).externalAgents = true ∧
    ({ given h busy with pfx := { busy.pfx with lock := true } } : State).pfx.lock = true ∧
    busy.externalAgents = false ∧ (Instr.stos .word).actsAsPrefix = false :=
  ⟨rfl, ⟨_, rfl⟩, by decide +kernel, rfl, by decide +kernel, rfl, rfl, rfl, rfl, rfl⟩

end Sys2Proof.Tests
end

section
/-! PROOFS. Single facts of the state: reset, the byte registers, FLAGS as a word (10_state.md R21, R25, R27, R33). -/

namespace Sys2Proof.Machine

/-! ### FLAGS as a word -/

/-- A bit of a word, read through its mask. -/
theorem getLsbD_eq_mask_ne_zero (v : Word) (k : Nat) (hk : k < 16) :
    v.getLsbD k = decide (v &&& BitVec.twoPow 16 k ≠ 0) := by
  have hmask : BitVec.twoPow 16 k ≠ 0#16 := fun e => by
    simpa [hk] using congrArg (·.getLsbD k) e
  rw [BitVec.and_twoPow]
  cases v.getLsbD k <;> simp [hmask]

/-- Reading back the nine flags of an image gives the flags (10 R25). -/
theorem Flags.ofImage_image (f : Flags) : Flags.ofImage f.image = f := by
  obtain ⟨h0, -, h2, -, h4, -, h6, h7, h8, h9, h10, h11, -⟩ := f.image_bits
  simp only [Flags.ofImage, h0, h2, h4, h6, h7, h8, h9, h10, h11]

/-- A written word keeps its nine flag bits; the seven X bits read as `FLAGS_X_READ` whatever was written (10 R27). -/
theorem Flags.image_ofImage (v : Word) : (Flags.ofImage v).image = (v &&& 0x0FD5) ||| 0xF002 := by
  obtain ⟨h0, h1, h2, h3, h4, h5, h6, h7, h8, h9, h10, h11, h12, h13, h14, h15⟩ := (Flags.ofImage v).image_bits
  apply BitVec.eq_of_getLsbD_eq
  intro k hk
  interval_cases k <;> simp only [BitVec.getLsbD_or, BitVec.getLsbD_and, *] <;> simp [Flags.ofImage]

/-- The nine flags of a word at their masks (10 R25). -/
theorem Flags.ofImage_masks (v : Word) : Flags.ofImage v =
    { of := decide (v &&& 0x0800 ≠ 0), df := decide (v &&& 0x0400 ≠ 0), ifl := decide (v &&& 0x0200 ≠ 0),
      tf := decide (v &&& 0x0100 ≠ 0), sf := decide (v &&& 0x0080 ≠ 0), zf := decide (v &&& 0x0040 ≠ 0),
      af := decide (v &&& 0x0010 ≠ 0), pf := decide (v &&& 0x0004 ≠ 0), cf := decide (v &&& 0x0001 ≠ 0) } := by
  have hbit := getLsbD_eq_mask_ne_zero v
  rw [Flags.ofImage, hbit 11 (by omega), hbit 10 (by omega), hbit 9 (by omega), hbit 8 (by omega), hbit 7 (by omega),
    hbit 6 (by omega), hbit 4 (by omega), hbit 2 (by omega), hbit 0 (by omega)]
  rfl

end Sys2Proof.Machine

open Sys2Proof Sys2Proof.Machine

/-- Settles O7: the memory of reset is canonical and no store is remembered. -/
theorem resetHasInvariant : Obligations.ResetHasInvariant :=
  ⟨reset_mem_wf, fun _ ha => absurd ha List.not_mem_nil⟩

/-- Settles O15: each value is the one `State.reset` is written with; the FLAGS image and the first fetch address
follow by evaluation. -/
theorem resetValues : Obligations.ResetValues :=
  ⟨rfl, by decide, rfl, rfl, rfl, rfl, rfl, rfl, rfl, rfl, rfl, by decide⟩

/-- Settles O21: a byte write replaces one half and puts the other back. -/
theorem byteRegistersAreHalves : Obligations.ByteRegistersAreHalves := fun g _ =>
  have halves (x : Word) : x = hiByte x ++ loByte x := (hiByte_append_loByte x).symm
  ⟨halves g.ax, halves g.cx, halves g.dx, halves g.bx, rfl, rfl, rfl, rfl, rfl, rfl, rfl, rfl⟩

/-- Settles O23: the image and the reading of a word are inverse but for the X bits. -/
theorem flagsWordLayout : Obligations.FlagsWordLayout :=
  ⟨Flags.ofImage_image, Flags.image_ofImage, Flags.ofImage_masks⟩
end

section
/-! PROOFS. The frames of the shared operations: what computing an operand, a transfer of control, a port access and a
repeated string instruction leave alone. -/

namespace Sys2Proof.Machine

/-! ### Operations that change registers, flags, memory and free values only -/

theorem State.setFlags_sameElse (s : State) (f : Flags) : s.SameElse (s.setFlags f) := rfl

theorem State.setReg_sameElse (s : State) (r : RegField) (v : Word) : s.SameElse (s.setReg r v) := rfl

theorem State.setByteReg_sameElse (s : State) (r : RegField) (v : Byte) : s.SameElse (s.setByteReg r v) := rfl

theorem State.push_sameElse (s : State) (v : Word) : s.SameElse (s.push v) := rfl

theorem State.popped_sameElse (s : State) : s.SameElse s.popped := rfl

theorem State.drawn_setFlags_sameElse (s : State) (f : Flags) : s.SameElse (s.drawn.setFlags f) := rfl

theorem State.binary_sameElse (s : State) (op : BinOp) (w : Width) (p : Place) (b : BitVec w.bits) :
    s.SameElse (s.binary op w p b) := by
  rw [State.sameElse_iff]
  simp only [State.binary]
  cases op.draws <;> cases op.writesBack <;> simp

theorem State.binaryRmReg_sameElse (s : State) (op : BinOp) (d : Dir) (w : Width) (reg : RegField) (rm : RM) :
    s.SameElse (s.binaryRmReg op d w reg rm) := by
  cases d <;> exact s.binary_sameElse _ _ _ _

theorem State.incDec_sameElse (s : State) (up : Bool) (w : Width) (p : Place) : s.SameElse (s.incDec up w p) :=
  (s.setFlags_sameElse _).trans (State.write_sameElse _ _ _ _)

theorem State.shift_sameElse (s : State) (op : ShiftOp) (v : CountSel) (w : Width) (rm : RM) :
    s.SameElse (s.shift op v w rm) := by
  rw [State.shift]
  split
  · exact .refl s
  · exact (s.drawn_setFlags_sameElse _).trans (State.write_sameElse _ _ _ _)

theorem State.setAccDouble_sameElse (s : State) (w : Width) (v : BitVec (w.bits + w.bits)) :
    s.SameElse (s.setAccDouble w v) := by
  cases w <;> rfl

theorem State.setQuotRem_sameElse (s : State) (w : Width) (q r : BitVec w.bits) : s.SameElse (s.setQuotRem w q r) := by
  cases w <;> rfl

theorem State.divideGives_sameElse (s : State) (w : Width) (q r : BitVec w.bits) :
    s.SameElse (s.divideGives w q r) :=
  (s.drawn_setFlags_sameElse _).trans (State.setQuotRem_sameElse _ w q r)

@[simp] theorem State.setAccDouble_flags (s : State) (w : Width) (v : BitVec (w.bits + w.bits)) :
    (s.setAccDouble w v).flags = s.flags := by
  cases w <;> rfl

@[simp] theorem State.setQuotRem_flags (s : State) (w : Width) (q r : BitVec w.bits) :
    (s.setQuotRem w q r).flags = s.flags := by
  cases w <;> rfl

/-! ### Ports -/

/-- Taking an answer leaves the others in their order and may draw a free value; nothing else differs (20_memory.md R48). -/
theorem State.portTaken_eq (s : State) :
    ∃ n, s.portTaken = { s with portIn := s.portIn.drop 1, freeCount := n } := by
  cases hin : s.portIn with
  | nil => exact ⟨s.freeCount + 1, by simp only [State.portTaken, hin, State.drawn, List.drop_nil]⟩
  | cons b rest => exact ⟨s.freeCount, by simp only [State.portTaken, hin, List.drop_one, List.tail_cons]⟩

theorem State.portTaken_portTaken_eq (s : State) :
    ∃ n, s.portTaken.portTaken = { s with portIn := s.portIn.drop 2, freeCount := n } := by
  obtain ⟨m, hm⟩ := s.portTaken_eq
  obtain ⟨n, hn⟩ := State.portTaken_eq { s with portIn := s.portIn.drop 1, freeCount := m }
  exact ⟨n, by rw [hm, hn, List.drop_drop]⟩

/-- IN reads its port once and takes one answer for each byte; nothing else differs but the accumulator and the count of
free values (20 R48; 40_data_transfer.md R105, R106). -/
theorem State.inPort_eq (s : State) (port : Word) (w : Width) : ∃ g n, s.inPort port w =
    { s with gpr := g, portIn := s.portIn.drop (w.bits / 8), io := s.io ++ [.read port w], freeCount := n } := by
  cases w with
  | byte =>
    obtain ⟨n, hn⟩ := (s.logIo (.read port .byte)).portTaken_eq
    exact ⟨_, n, congrArg (State.write · .byte accPlace _) hn⟩
  | word =>
    obtain ⟨n, hn⟩ := (s.logIo (.read port .word)).portTaken_portTaken_eq
    exact ⟨_, n, congrArg (State.write · .word accPlace _) hn⟩

/-! ### Elements of the string instructions -/

theorem movsElement_sameElse (w : Width) (s : State) : s.SameElse (movsElement w s) :=
  (s.write_sameElse w _ _).trans rfl

theorem cmpsElement_sameElse (w : Width) (s : State) : s.SameElse (cmpsElement w s) := rfl

theorem scasElement_sameElse (w : Width) (s : State) : s.SameElse (scasElement w s) := rfl

theorem lodsElement_sameElse (w : Width) (s : State) : s.SameElse (lodsElement w s) :=
  (s.write_sameElse w _ _).trans rfl

theorem stosElement_sameElse (w : Width) (s : State) : s.SameElse (stosElement w s) :=
  (s.write_sameElse w _ _).trans rfl

/-! ### Repetitions -/

/-- What a repetition may change besides its elements: CX, IP, memory where other agents write or RESET leaves bytes open,
and what the boundary between two elements uses up (43_string.md R161). -/
def State.BetweenElements (s t : State) : Prop :=
  t = { s with
    gpr := t.gpr, ip := t.ip, mem := t.mem, staleCode := t.staleCode, inputs := t.inputs, nmiPending := t.nmiPending,
    freeCount := t.freeCount }

theorem State.decCx_between (s : State) : s.BetweenElements s.decCx := rfl

theorem State.setIp_between (s : State) (v : Word) : s.BetweenElements (s.setIp v) := rfl

theorem State.resetNext_between (s : State) : s.BetweenElements s.resetNext := rfl

theorem State.pastBoundary_between (s : State) : s.BetweenElements s.pastBoundary := rfl

theorem State.scramble_between (s : State) (l : List Nat) : s.BetweenElements (s.scramble l) := by
  obtain ⟨m, c, h, -⟩ := s.scramble_spec l
  rw [h]
  rfl

/-- A property kept by each element and by what happens between two of them is kept by the whole repetition. -/
theorem repeatString_keeps {P : State → Prop} {elem : State → State} {dst : State → List Nat} {stop : State → Bool}
    (helem : ∀ u, P u → P (elem u)) (hbetween : ∀ u v, u.BetweenElements v → P u → P v) (n : Nat) {s t : State}
    (hs : P s) (h : repeatString elem dst stop n s = .next t) : P t := by
  induction n generalizing s with
  | zero => exact Host.Outcome.next.inj h ▸ hs
  | succ n ih =>
    have hone : P (elem s).decCx := hbetween _ _ (State.decCx_between _) (helem s hs)
    have hpast : P (elem s).decCx.pastBoundary := hbetween _ _ (State.pastBoundary_between _) hone
    have hback : ∀ u v, P u → P (u.setIp v) := fun u v => hbetween _ _ (u.setIp_between v)
    rw [repeatString] at h
    split at h
    · exact Host.Outcome.next.inj h ▸ hone
    split at h
    · exact Host.Outcome.next.inj h ▸ hback _ _ hone
    split at h
    · split at h
      · exact Host.Outcome.next.inj h ▸ hback _ _ hone
      · cases h
    split at h
    · exact Host.Outcome.next.inj h ▸ hback _ _ hpast
    · have hopen : P ((elem s).decCx.pastBoundary.scramble (dst (elem s).decCx)).resetNext :=
        hbetween _ _ (State.resetNext_between _) (hbetween _ _ (State.scramble_between _ _) hpast)
      exact Host.Outcome.next.inj h ▸ hback _ _ hopen
    · exact ih hpast h
    · exact ih hpast h

/-- The same of a string instruction with or without REP. -/
theorem State.string_keeps {P : State → Prop} {usesZf : Bool} {dst : State → List Nat} {elem : State → State}
    (helem : ∀ u, P u → P (elem u)) (hbetween : ∀ u v, u.BetweenElements v → P u → P v) {s t : State} (hs : P s)
    (h : s.string usesZf dst elem = .next t) : P t := by
  rw [State.string] at h
  split at h
  · exact Host.Outcome.next.inj h ▸ helem s hs
  · exact repeatString_keeps helem hbetween _ hs h

end Sys2Proof.Machine
end

section
/-! PROOFS. Say once what executing one instruction can do to the state: `exec_effect`. Who writes which segment register and
which hidden state is read off it. -/

namespace Sys2Proof.Machine

/-! ### The divide error -/

/-- DIV fails for divisor 0 and for a quotient of more than n bits (41_arithmetic.md R118, R135). -/
theorem divideErrorDue_div_iff {w : Width} {rm : RM} {s : State} : divideErrorDue (.div w rm) s = true ↔
    (s.read w (s.place rm)).toNat = 0 ∨ 2 ^ w.bits ≤ (s.accDouble w).toNat / (s.read w (s.place rm)).toNat := by
  have hpos : 0 < 2 ^ w.bits := Nat.two_pow_pos w.bits
  simp only [divideErrorDue, Bool.or_eq_true, beq_iff_eq, decide_eq_true_eq]
  omega

/-- IDIV fails for divisor 0 and for a quotient outside its range (41 R118, R136). -/
theorem divideErrorDue_idiv_iff {w : Width} {rm : RM} {s : State} : divideErrorDue (.idiv w rm) s = true ↔
    (s.read w (s.place rm)).toInt = 0 ∨
      2 ^ (w.bits - 1) - 1 < (s.accDouble w).toInt.tdiv (s.read w (s.place rm)).toInt ∨
      (s.accDouble w).toInt.tdiv (s.read w (s.place rm)).toInt < idivMin w.bits := by
  simp only [divideErrorDue, Bool.or_eq_true, beq_iff_eq, decide_eq_true_eq, or_assoc]

/-- Where a divide error is due the instruction is a divide that fails (41 R134 to R136; 60_exceptions.md R231). -/
theorem exec_of_divideErrorDue {i : Instr} {s : State} (hd : divideErrorDue i s = true) :
    ∃ w, exec i s = .next (s.divideFails w) := by
  cases i with
  | div w rm => exact ⟨w, if_pos (divideErrorDue_div_iff.mp hd)⟩
  | idiv w rm => exact ⟨w, if_pos (divideErrorDue_idiv_iff.mp hd)⟩
  | aam base => exact ⟨.byte, if_pos hd⟩
  | _ => cases hd

theorem exec_div_of_fits {w : Width} {rm : RM} {s : State} (hd : divideErrorDue (.div w rm) s = false) :
    ∃ q r, exec (.div w rm) s = .next (s.divideGives w q r) :=
  ⟨_, _, if_neg (mt divideErrorDue_div_iff.mpr (ne_true_of_eq_false hd))⟩

theorem exec_idiv_of_fits {w : Width} {rm : RM} {s : State} (hd : divideErrorDue (.idiv w rm) s = false) :
    ∃ q r, exec (.idiv w rm) s = .next (s.divideGives w q r) :=
  ⟨_, _, if_neg (mt divideErrorDue_idiv_iff.mpr (ne_true_of_eq_false hd))⟩

theorem exec_aam_of_fits {base : Byte} {s : State} (hd : divideErrorDue (.aam base) s = false) :
    exec (.aam base) s = .next (((s.drawn.setFlags (s.flags.setBase s.freeFlags (s.al % base))).setByteReg .spAh
      (s.al / base)).setByteReg .axAl (s.al % base)) :=
  if_neg (ne_true_of_eq_false hd)

/-! ### The effects -/

/-- The instructions that load CS: intersegment CALL, JMP and RET, the interrupts, IRET and a divide that fails
(10_state.md R23). -/
def LoadsCs (i : Instr) (s : State) : Prop :=
  (∃ off sg, i = .callFar off sg) ∨ (∃ m, i = .callFarMem m) ∨ (∃ off sg, i = .jmpFar off sg) ∨ (∃ m, i = .jmpFarMem m) ∨
    i = .retFar ∨ (∃ d, i = .retFarImm d) ∨ (∃ k, i = .int k) ∨ i = .int3 ∨ i = .into ∨ i = .iret ∨
    divideErrorDue i s = true

/-- IN and OUT (20_memory.md R48). -/
def AccessesPort (i : Instr) : Prop :=
  (∃ w p, i = .inFixed w p ∨ i = .outFixed w p) ∨ ∃ w, i = .inVariable w ∨ i = .outVariable w

/-- The most that executing `i` from `s` can do, by kind of instruction. -/
inductive Effect (s : State) : Instr → State → Prop where
  /-- Registers, flags, memory and the offset of the next instruction: computing, and transfers within the segment. -/
  | computes (i : Instr) (g : Gpr) (ip : Word) (f : Flags) (m : Memory) (c : List Nat) (n : Nat) :
    Effect s i { s with gpr := g, ip := ip, flags := f, mem := m, staleCode := c, freeCount := n }
  /-- CS as well; an interrupt ends a halt. -/
  | transfersFar (i : Instr) (hi : LoadsCs i s) (g : Gpr) (cs ip : Word) (f : Flags) (m : Memory) (halted : Bool)
      (hh : halted = true → s.halted = true) (c : List Nat) (n : Nat) :
    Effect s i { s with
      gpr := g, seg := { s.seg with cs := cs }, ip := ip, flags := f, mem := m, halted := halted, staleCode := c,
      freeCount := n }
  | movSreg (sr : SReg) (rm : RM) (hsr : sr ≠ .cs) (v : Word) :
    Effect s (.movSregRm sr rm) { s with seg := s.seg.set sr v, intInhibit := true }
  | popSreg (sr : SReg) (hsr : sr ≠ .cs) (g : Gpr) (v : Word) :
    Effect s (.popSreg sr) { s with gpr := g, seg := s.seg.set sr v, intInhibit := true }
  | loadsDs (reg : RegField) (m : MemOp) (g : Gpr) (v : Word) :
    Effect s (.lds reg m) { s with gpr := g, seg := s.seg.set .ds v }
  | loadsEs (reg : RegField) (m : MemOp) (g : Gpr) (v : Word) :
    Effect s (.les reg m) { s with gpr := g, seg := s.seg.set .es v }
  | accessesPort (i : Instr) (hi : AccessesPort i) (g : Gpr) (answers : List Byte) (io : List IoEvent) (n : Nat) :
    Effect s i { s with gpr := g, portIn := answers, io := io, freeCount := n }
  | repeats (i : Instr) (hi : i.isStringPrimitive = true) (hrep : s.pfx.rep ≠ none) (g : Gpr) (ip : Word) (f : Flags)
      (m : Memory) (c : List Nat) (inputs : List HostInput) (nmi : Bool) (n : Nat) :
    Effect s i { s with
      gpr := g, ip := ip, flags := f, mem := m, staleCode := c, inputs := inputs, nmiPending := nmi, freeCount := n }
  | sti (f : Flags) : Effect s .sti { s with flags := f, intInhibit := true }
  | hlt : Effect s .hlt { s with halted := true }
  | wait (ip : Word) : Effect s .wait { s with ip := ip, waiting := true }
  | records (i : Instr) (hi : i.actsAsPrefix = true) (p : PrefixState) : Effect s i { s with pfx := p }

theorem Effect.of_sameElse {i : Instr} {s t : State} (h : s.SameElse t) : Effect s i t := by
  rw [State.SameElse] at h
  rw [h]
  exact .computes ..

/-- The outcome of `exec` is known: the effect of its state is the effect of the instruction. -/
theorem Effect.of_next {i : Instr} {s t u : State} (h : (.next u : Host.Outcome State Fault Refusal) = .next t)
    (hu : Effect s i u) : Effect s i t :=
  Host.Outcome.next.inj h ▸ hu

theorem Effect.of_jumpIf {i : Instr} {s u : State} {c : Bool} {d : Byte} (h : s.SameElse u) :
    Effect s i (u.jumpIf c d) := by
  rw [State.SameElse] at h
  cases c
  · exact .of_sameElse h
  · rw [h]
    exact .computes ..

theorem Effect.of_divideFails {i : Instr} {s : State} (hd : divideErrorDue i s = true) (w : Width) :
    Effect s i (s.divideFails w) := by
  have hcs : LoadsCs i s := by simp only [LoadsCs, hd, or_true]
  cases w <;> exact .transfersFar i hcs _ _ _ _ _ false nofun _ _

/-- What a repetition may change in all: what its elements and what happens between them may (43_string.md R161). -/
def State.SameButRepeated (s t : State) : Prop :=
  ∃ g ip f m c inputs nmi n, t = { s with
    gpr := g, ip := ip, flags := f, mem := m, staleCode := c, inputs := inputs, nmiPending := nmi, freeCount := n }

theorem State.SameButRepeated.elem {s t u : State} (h : s.SameButRepeated t) (k : t.SameElse u) :
    s.SameButRepeated u := by
  obtain ⟨_, _, _, _, _, _, _, _, rfl⟩ := h
  exact ⟨_, _, _, _, _, _, _, _, k⟩

theorem State.SameButRepeated.between {s t u : State} (h : s.SameButRepeated t) (k : t.BetweenElements u) :
    s.SameButRepeated u := by
  obtain ⟨_, _, _, _, _, _, _, _, rfl⟩ := h
  exact ⟨_, _, _, _, _, _, _, _, k⟩

/-- What a string instruction changes: one element, or a repetition when REP precedes. -/
theorem Effect.of_string {i : Instr} {s t : State} {usesZf : Bool} {dst : State → List Nat} {elem : State → State}
    (hi : i.isStringPrimitive = true) (helem : ∀ u : State, u.SameElse (elem u)) (h : s.string usesZf dst elem = .next t) :
    Effect s i t := by
  cases hrep : s.pfx.rep with
  | none =>
    rw [State.string, hrep] at h
    exact .of_next h (.of_sameElse (helem s))
  | some z =>
    have hstart : s.SameButRepeated s := ⟨_, _, _, _, _, _, _, _, rfl⟩
    obtain ⟨_, _, _, _, _, _, _, _, rfl⟩ : s.SameButRepeated t :=
      State.string_keeps (fun u hu => hu.elem (helem u)) (fun _ _ hv hu => hu.between hv) hstart h
    exact .repeats i hi (by rw [hrep]; exact Option.some_ne_none z) ..

theorem Effect.of_interrupt {i : Instr} {s : State} (hi : LoadsCs i s) (k : Byte) (ret : Word) :
    Effect s i (s.interrupt k ret) :=
  .transfersFar i hi _ _ _ _ _ false nofun _ _

theorem Effect.of_inPort {i : Instr} {s : State} (hi : AccessesPort i) (port : Word) (w : Width) :
    Effect s i (s.inPort port w) := by
  obtain ⟨g, n, h⟩ := s.inPort_eq port w
  rw [h]
  exact .accessesPort i hi ..

/-! ### Instructions whose meaning has a condition -/

theorem exec_inVariable_next {w : Width} {s t : State} (h : exec (.inVariable w) s = .next t) :
    s.inPort s.gpr.dx w = t := by
  change (if portRefused s.gpr.dx w then _ else _) = _ at h
  split at h
  · cases h
  · exact Host.Outcome.next.inj h

theorem exec_outVariable_next {w : Width} {s t : State} (h : exec (.outVariable w) s = .next t) :
    s.outPort s.gpr.dx w = t := by
  change (if portRefused s.gpr.dx w then _ else _) = _ at h
  split at h
  · cases h
  · exact Host.Outcome.next.inj h

theorem exec_into (s : State) : exec .into s = .next (if s.flags.of then s.interrupt 4 s.ip else s) :=
  (apply_ite Host.Outcome.next _ _ _).symm

theorem exec_wait (s : State) :
    exec .wait s = .next (if s.input.test then s else { s with waiting := true, ip := s.startIp }) :=
  (apply_ite Host.Outcome.next _ _ _).symm

/-! ### The inversion of `exec` -/

/-- Every instruction to its effect. -/
theorem exec_effect {i : Instr} {s t : State} (h : exec i s = .next t) : Effect s i t := by
  cases hd : divideErrorDue i s with
  | true =>
    obtain ⟨w, hfails⟩ := exec_of_divideErrorDue hd
    exact .of_next (hfails.symm.trans h) (.of_divideFails hd w)
  | false =>
  cases i with
  -- data transfer
  | movRmReg d w reg rm => cases d <;> exact .of_next h (.of_sameElse (s.write_sameElse w _ _))
  | movRmImm | movRegImm | movAccMem | movMemAcc | movRmSreg =>
    exact .of_next h (.of_sameElse (s.write_sameElse _ _ _))
  | movSregRm sr rm =>
    cases sr with
    | cs => cases h
    | es | ss | ds => exact .of_next h (.movSreg _ rm (by decide) _)
  | pushRm rm =>
    rcases rm with r | m
    · cases r <;> exact .of_next h (.of_sameElse rfl)
    · exact .of_next h (.of_sameElse (s.push_sameElse _))
  | pushReg reg => cases reg <;> exact .of_next h (.of_sameElse (s.push_sameElse _))
  | pushSreg | pushf => exact .of_next h (.of_sameElse (s.push_sameElse _))
  | popRm rm => exact .of_next h (.of_sameElse (s.popped_sameElse.trans (State.write_sameElse _ _ _ _)))
  | popReg reg => exact .of_next h (.of_sameElse (s.popped_sameElse.trans (State.setReg_sameElse _ reg _)))
  | popSreg sr =>
    cases sr with
    | cs => cases h
    | es | ss | ds => exact .of_next h (.popSreg _ (by decide) _ _)
  | xchgRmReg w reg rm =>
    exact .of_next h (.of_sameElse ((s.write_sameElse w _ _).trans (State.write_sameElse _ _ _ _)))
  | xchgAccReg reg => exact .of_next h (.of_sameElse rfl)
  | inFixed w p => exact .of_next h (.of_inPort (.inl ⟨w, p, .inl rfl⟩) _ w)
  | inVariable w =>
    rw [← exec_inVariable_next h]
    exact .of_inPort (.inr ⟨w, .inl rfl⟩) _ w
  | outFixed w p => exact .of_next h (.accessesPort _ (.inl ⟨w, p, .inr rfl⟩) ..)
  | outVariable w =>
    rw [← exec_outVariable_next h]
    exact .accessesPort _ (.inr ⟨w, .inr rfl⟩) ..
  | xlat | lahf => exact .of_next h (.of_sameElse (s.setByteReg_sameElse _ _))
  | lea reg m => exact .of_next h (.of_sameElse (s.setReg_sameElse reg _))
  | lds reg m => exact .of_next h (.loadsDs reg m _ _)
  | les reg m => exact .of_next h (.loadsEs reg m _ _)
  | sahf => exact .of_next h (.of_sameElse (s.setFlags_sameElse _))
  | popf => exact .of_next h (.of_sameElse (s.popped_sameElse.trans (State.setFlags_sameElse _ _)))
  -- arithmetic and logic
  | addRmReg | adcRmReg | subRmReg | sbbRmReg | cmpRmReg | andRmReg | testRmReg | orRmReg | xorRmReg =>
    exact .of_next h (.of_sameElse (s.binaryRmReg_sameElse _ _ _ _ _))
  | addRmImm | adcRmImm | subRmImm | sbbRmImm | cmpRmImm | andRmImm | testRmImm | orRmImm | xorRmImm | addAccImm | adcAccImm
  | subAccImm | sbbAccImm | cmpAccImm | andAccImm | testAccImm | orAccImm | xorAccImm =>
    exact .of_next h (.of_sameElse (s.binary_sameElse _ _ _ _))
  | incRm | incReg | decRm | decReg => exact .of_next h (.of_sameElse (s.incDec_sameElse _ _ _))
  | neg w rm =>
    exact .of_next h (.of_sameElse ((s.setFlags_sameElse _).trans (State.write_sameElse _ w _ _)))
  | not w rm => exact .of_next h (.of_sameElse (s.write_sameElse w _ _))
  | aaa | daa | aas | das | aad => exact .of_next h (.of_sameElse rfl)
  | mul w | imul w =>
    exact .of_next h (.of_sameElse ((s.drawn_setFlags_sameElse _).trans (State.setAccDouble_sameElse _ w _)))
  | aam base => exact .of_next ((exec_aam_of_fits hd).symm.trans h) (.of_sameElse rfl)
  | div w rm =>
    obtain ⟨q, r, hgives⟩ := exec_div_of_fits hd
    exact .of_next (hgives.symm.trans h) (.of_sameElse (s.divideGives_sameElse w q r))
  | idiv w rm =>
    obtain ⟨q, r, hgives⟩ := exec_idiv_of_fits hd
    exact .of_next (hgives.symm.trans h) (.of_sameElse (s.divideGives_sameElse w q r))
  | cbw | cwd => exact .of_next h (.of_sameElse (s.setReg_sameElse _ _))
  | shl | shr | sar | rol | ror | rcl | rcr => exact .of_next h (.of_sameElse (s.shift_sameElse _ _ _ _))
  -- strings
  | movs w => exact .of_string rfl (movsElement_sameElse w) h
  | cmps w => exact .of_string rfl (cmpsElement_sameElse w) h
  | scas w => exact .of_string rfl (scasElement_sameElse w) h
  | lods w => exact .of_string rfl (lodsElement_sameElse w) h
  | stos w => exact .of_string rfl (stosElement_sameElse w) h
  -- transfers of control
  | callRel | callRm | jmpRel | jmpShort | jmpRm | ret | retImm => exact .of_next h (.computes ..)
  | callFar | callFarMem | jmpFar | jmpFarMem | retFar | retFarImm | iret =>
    exact .of_next h (.transfersFar _ (by simp [LoadsCs]) _ _ _ _ _ _ id _ _)
  | int | int3 => exact .of_next h (.of_interrupt (by simp [LoadsCs]) _ _)
  | into =>
    refine .of_next ((exec_into s).symm.trans h) ?_
    split
    · exact .of_interrupt (by simp [LoadsCs]) _ _
    · exact .of_sameElse (.refl s)
  | je | jl | jle | jb | jbe | jp | jo | js | jne | jnl | jnle | jnb | jnbe | jnp | jno | jns | jcxz =>
    exact .of_next h (.of_jumpIf (.refl s))
  | loop | loopz | loopnz => exact .of_next h (.of_jumpIf (s.setReg_sameElse _ _))
  -- processor control
  | clc | cmc | stc | cld | std | cli => exact .of_next h (.of_sameElse (s.setFlags_sameElse _))
  | sti => exact .of_next h (.sti _)
  | hlt => exact .of_next h .hlt
  | wait =>
    refine .of_next ((exec_wait s).symm.trans h) ?_
    split
    · exact .of_sameElse (.refl s)
    · exact .wait _
  | esc => exact .of_next h (.of_sameElse (.refl s))
  | rep | lock | seg => exact .of_next h (.records _ rfl _)

end Sys2Proof.Machine
end

section
/-! PROOFS. Who writes the segment registers, the hidden state and the ports, read off the effect of an instruction
(10_state.md R23, R30, R32). -/

namespace Sys2Proof.Machine

variable {i : Instr} {s t : State}

/-! ### Segment registers -/

/-- The writers of each segment register. MOV and POP never get as far as CS: both are refused (30_encoding.md R79
item 8). -/
theorem Effect.seg_writers (e : Effect s i t) (r : SReg) :
    t.seg.get r = s.seg.get r ∨ (r ≠ .cs ∧ ((∃ rm, i = .movSregRm r rm) ∨ i = .popSreg r)) ∨
      (r = .es ∧ ∃ q m, i = .les q m) ∨ (r = .ds ∧ ∃ q m, i = .lds q m) ∨ (r = .cs ∧ LoadsCs i s) := by
  cases e with
  | transfersFar i hi =>
    cases r with
    | cs => exact .inr (.inr (.inr (.inr ⟨rfl, hi⟩)))
    | es | ss | ds => exact .inl rfl
  | movSreg sr rm hsr =>
    by_cases hr : r = sr
    · subst hr
      exact .inr (.inl ⟨hsr, .inl ⟨rm, rfl⟩⟩)
    · exact .inl (SegRegs.get_set_other _ _ _ _ hr)
  | popSreg sr hsr =>
    by_cases hr : r = sr
    · subst hr
      exact .inr (.inl ⟨hsr, .inr rfl⟩)
    · exact .inl (SegRegs.get_set_other _ _ _ _ hr)
  | loadsEs q m =>
    by_cases hr : r = .es
    · exact .inr (.inr (.inl ⟨hr, q, m, rfl⟩))
    · exact .inl (SegRegs.get_set_other _ _ _ _ hr)
  | loadsDs q m =>
    by_cases hr : r = .ds
    · exact .inr (.inr (.inr (.inl ⟨hr, q, m, rfl⟩)))
    · exact .inl (SegRegs.get_set_other _ _ _ _ hr)
  | _ => exact .inl rfl

/-! ### Hidden state -/

theorem Effect.halted_writers (e : Effect s i t) (ht : t.halted = true) : s.halted = true ∨ i = .hlt := by
  cases e with
  | transfersFar _ _ _ _ _ _ _ _ hh => exact .inl (hh ht)
  | hlt => exact .inr rfl
  | _ => exact .inl ht

theorem Effect.intInhibit_writers (e : Effect s i t) :
    t.intInhibit = s.intInhibit ∨ (∃ sr rm, i = .movSregRm sr rm) ∨ (∃ sr, i = .popSreg sr) ∨ i = .sti := by
  cases e with
  | movSreg sr rm => exact .inr (.inl ⟨sr, rm, rfl⟩)
  | popSreg sr => exact .inr (.inr (.inl ⟨sr, rfl⟩))
  | sti => exact .inr (.inr (.inr rfl))
  | _ => exact .inl rfl

theorem Effect.pfx_writers (e : Effect s i t) : t.pfx = s.pfx ∨ i.actsAsPrefix = true := by
  cases e with
  | records i hi => exact .inr hi
  | _ => exact .inl rfl

theorem Effect.host_writers (e : Effect s i t) :
    (t.inputs = s.inputs ∧ t.nmiPending = s.nmiPending) ∨ (i.isStringPrimitive = true ∧ s.pfx.rep ≠ none) := by
  cases e with
  | repeats i hi hrep => exact .inr ⟨hi, hrep⟩
  | _ => exact .inl ⟨rfl, rfl⟩

theorem Effect.waiting_writers (e : Effect s i t) : t.waiting = s.waiting ∨ i = .wait := by
  cases e with
  | wait => exact .inr rfl
  | _ => exact .inl rfl

/-- The fields that belong to the step: no instruction writes them. -/
theorem Effect.step_fields (e : Effect s i t) :
    t.tfAtStart = s.tfAtStart ∧ t.startIp = s.startIp ∧ t.justReset = s.justReset ∧ t.testLevel = s.testLevel := by
  cases e <;> exact ⟨rfl, rfl, rfl, rfl⟩

/-! ### Ports -/

theorem Effect.port_writers (e : Effect s i t) : (t.io = s.io ∧ t.portIn = s.portIn) ∨ AccessesPort i := by
  cases e with
  | accessesPort i hi => exact .inr hi
  | _ => exact .inl ⟨rfl, rfl⟩

theorem State.inPort_ports (s : State) (port : Word) (w : Width) :
    (s.inPort port w).io = s.io ++ [.read port w] ∧ (s.inPort port w).portIn = s.portIn.drop (w.bits / 8) := by
  obtain ⟨g, n, h⟩ := s.inPort_eq port w
  rw [h]
  exact ⟨rfl, rfl⟩

/-- IN reads one port, whichever form it has (20_memory.md R48). -/
theorem exec_in_ports {w : Width} (hi : (∃ p, i = .inFixed w p) ∨ i = .inVariable w) (h : exec i s = .next t) :
    (∃ p, t.io = s.io ++ [.read p w]) ∧ t.portIn = s.portIn.drop (w.bits / 8) := by
  have hin : ∃ port, s.inPort port w = t := by
    rcases hi with ⟨p, rfl⟩ | rfl
    · exact ⟨_, Host.Outcome.next.inj h⟩
    · exact ⟨_, exec_inVariable_next h⟩
  obtain ⟨port, rfl⟩ := hin
  exact ⟨⟨port, (s.inPort_ports port w).1⟩, (s.inPort_ports port w).2⟩

/-- OUT writes one port, whichever form it has (20 R48). -/
theorem exec_out_ports {w : Width} (hi : (∃ p, i = .outFixed w p) ∨ i = .outVariable w) (h : exec i s = .next t) :
    (∃ p v, t.io = s.io ++ [.write p w v]) ∧ t.portIn = s.portIn := by
  have hout : ∃ port, s.outPort port w = t := by
    rcases hi with ⟨p, rfl⟩ | rfl
    · exact ⟨_, Host.Outcome.next.inj h⟩
    · exact ⟨_, exec_outVariable_next h⟩
  obtain ⟨port, rfl⟩ := hout
  exact ⟨⟨port, _, rfl⟩, rfl⟩

end Sys2Proof.Machine

open Sys2Proof Sys2Proof.Machine

/-- Settles O8: the writers of each register are read off the effect of the instruction. -/
theorem segmentRegisterWriters : Obligations.SegmentRegisterWriters := by
  intro i s t h
  have writers := (exec_effect h).seg_writers
  have hcs : t.seg.cs = s.seg.cs ∨ LoadsCs i s := by simpa [SegRegs.get] using writers .cs
  refine ⟨?_, ?_, ?_, hcs⟩
  · simpa [SegRegs.get, or_assoc] using writers .es
  · simpa [SegRegs.get] using writers .ss
  · simpa [SegRegs.get, or_assoc] using writers .ds

/-- Settles O10: the hidden state is read off the effect of the instruction, the port accesses off IN and OUT. -/
theorem hiddenStateWriters : Obligations.HiddenStateWriters := by
  intro i s t h
  have e := exec_effect h
  refine ⟨e.halted_writers, e.intInhibit_writers, e.pfx_writers, fun w hi => exec_in_ports hi h,
    fun w hi => exec_out_ports hi h, fun hfixed hvariable => ?_, e.host_writers, e.waiting_writers, e.step_fields⟩
  refine e.port_writers.resolve_right ?_
  rintro (⟨w, p, hi | hi⟩ | ⟨w, hi | hi⟩)
  · exact (hfixed w p).1 hi
  · exact (hfixed w p).2 hi
  · exact (hvariable w).1 hi
  · exact (hvariable w).2 hi
end

section
/-! PROOFS. The affected-flags table (10_state.md R34): what each flag computation may do, what each shared operation does to
FLAGS, and the table instruction by instruction. -/

namespace Sys2Proof.Machine

/-! ### The codes of the table -/

theorem FlagEffect.Allows.trans {e : FlagEffect} {a b c : Bool} (h : e.Allows a b) (k : e.Allows b c) :
    e.Allows a c := by
  cases e with
  | keep => exact Eq.trans k h
  | reset | set => exact k
  | affected | unknown => trivial

theorem FlagEffects.Allow.trans {e : FlagEffects} {f g k : Flags} (hfg : e.Allow f g) (hgk : e.Allow g k) :
    e.Allow f k := by
  obtain ⟨o, d, i, t, s, z, a, p, c⟩ := hfg
  obtain ⟨o', d', i', t', s', z', a', p', c'⟩ := hgk
  exact ⟨o.trans o', d.trans d', i.trans i', t.trans t', s.trans s', z.trans z', a.trans a', p.trans p', c.trans c'⟩

theorem FlagEffects.Allow.of_eq {e : FlagEffects} {f g k : Flags} (h : e.Allow f g) (hk : k = g) : e.Allow f k :=
  hk ▸ h

theorem FlagEffects.none_refl (f : Flags) : FlagEffects.none.Allow f f :=
  ⟨rfl, rfl, rfl, rfl, rfl, rfl, rfl, rfl, rfl⟩

theorem FlagEffects.sums_refl (f : Flags) : FlagEffects.sums.Allow f f :=
  ⟨trivial, rfl, rfl, rfl, trivial, trivial, trivial, trivial, trivial⟩

/-! ### Flag computations -/

theorem Flags.setSum_allow {n : Nat} (f : Flags) (x : Sum n) : FlagEffects.sums.Allow f (f.setSum x) :=
  ⟨trivial, rfl, rfl, rfl, trivial, trivial, trivial, trivial, trivial⟩

theorem Flags.setSumKeepCf_allow {n : Nat} (f : Flags) (x : Sum n) :
    FlagEffects.sumsKeepCf.Allow f (f.setSumKeepCf x) :=
  ⟨trivial, rfl, rfl, rfl, trivial, trivial, trivial, trivial, rfl⟩

theorem Flags.setLogic_allow {n : Nat} (f any : Flags) (r : BitVec n) :
    FlagEffects.logic.Allow f (f.setLogic any r) :=
  ⟨rfl, rfl, rfl, rfl, trivial, trivial, trivial, trivial, rfl⟩

theorem Flags.setMul_allow (f any : Flags) (sig : Bool) : FlagEffects.products.Allow f (f.setMul any sig) :=
  ⟨trivial, rfl, rfl, rfl, trivial, trivial, trivial, trivial, trivial⟩

theorem Flags.setUnknown_allow (f any : Flags) : FlagEffects.quotients.Allow f (f.setUnknown any) :=
  ⟨trivial, rfl, rfl, rfl, trivial, trivial, trivial, trivial, trivial⟩

theorem Flags.setAscii_allow (f any : Flags) (adjusted : Bool) : FlagEffects.ascii.Allow f (f.setAscii any adjusted) :=
  ⟨trivial, rfl, rfl, rfl, trivial, trivial, trivial, trivial, trivial⟩

theorem Flags.setBase_allow (f any : Flags) (al : Byte) : FlagEffects.bases.Allow f (f.setBase any al) :=
  ⟨trivial, rfl, rfl, rfl, trivial, trivial, trivial, trivial, trivial⟩

theorem Flags.setDecimal_allow (f any : Flags) (al : Byte) (af cf : Bool) :
    FlagEffects.decimal.Allow f (f.setDecimal any al af cf) :=
  ⟨trivial, rfl, rfl, rfl, trivial, trivial, trivial, trivial, trivial⟩

theorem Flags.masked_allow (f : Flags) :
    FlagEffects.Allow { FlagEffects.none with ifl := .reset, tf := .reset } f f.masked :=
  ⟨rfl, rfl, rfl, rfl, rfl, rfl, rfl, rfl, rfl⟩

/-- The row of a two-operand operation (10 R34). -/
def BinOp.effects : BinOp → FlagEffects
  | .add | .adc | .sub | .sbb | .cmp => .sums
  | .and | .test | .or | .xor => .logic

theorem BinOp.eval_allow {n : Nat} (op : BinOp) (a b : BitVec n) (f any : Flags) :
    op.effects.Allow f (op.eval a b f any).2 := by
  cases op with
  | add | adc | sub | sbb | cmp => exact f.setSum_allow _
  | and | test | or | xor => exact f.setLogic_allow any _

/-- The row of a shift or rotate (10 R34). -/
def ShiftOp.effects : ShiftOp → FlagEffects
  | .shl | .shr | .sar => .bits
  | .rol | .ror | .rcl | .rcr => .rotates

theorem ShiftOp.effects_refl (op : ShiftOp) (f : Flags) : op.effects.Allow f f := by
  cases op with
  | shl | shr | sar => exact ⟨trivial, rfl, rfl, rfl, trivial, trivial, trivial, trivial, trivial⟩
  | rol | ror | rcl | rcr => exact ⟨trivial, rfl, rfl, rfl, rfl, rfl, rfl, rfl, trivial⟩

theorem ShiftOp.flags_allow {n : Nat} (op : ShiftOp) (count : Nat) (x0 x : BitVec n) (cf : Bool) (f any : Flags) :
    op.effects.Allow f (op.flags count x0 x cf f any) := by
  cases op with
  | shl | shr | sar => exact ⟨trivial, rfl, rfl, rfl, trivial, trivial, trivial, trivial, trivial⟩
  | rol | ror | rcl | rcr => exact ⟨trivial, rfl, rfl, rfl, rfl, rfl, rfl, rfl, trivial⟩

/-! ### Shared operations -/

theorem State.binary_allow (s : State) {op : BinOp} {w : Width} {p : Place} {b : BitVec w.bits} {e : FlagEffects}
    (he : op.effects = e) : e.Allow s.flags (s.binary op w p b).flags := by
  rw [s.binary_flags, ← he]
  exact op.eval_allow _ _ _ _

theorem State.binaryRmReg_allow (s : State) {op : BinOp} {d : Dir} {w : Width} {reg : RegField} {rm : RM}
    {e : FlagEffects} (he : op.effects = e) : e.Allow s.flags (s.binaryRmReg op d w reg rm).flags := by
  cases d <;> exact s.binary_allow he

theorem State.incDec_allow (s : State) (up : Bool) (w : Width) (p : Place) :
    FlagEffects.sumsKeepCf.Allow s.flags (s.incDec up w p).flags := by
  rw [State.incDec, State.write_flags]
  exact s.flags.setSumKeepCf_allow _

/-- With count 0 no flag changes, which every shift and rotate allows. -/
theorem State.shift_allow (s : State) {op : ShiftOp} {v : CountSel} {w : Width} {rm : RM} {e : FlagEffects}
    (he : op.effects = e) : e.Allow s.flags (s.shift op v w rm).flags := by
  subst he
  by_cases hv : s.shiftCount v = 0
  · rw [s.shift_zero op v w rm hv]
    exact op.effects_refl _
  · rw [s.shift_flags op v w rm hv]
    exact op.flags_allow _ _ _ _ _ _

theorem State.divideGives_allow (s : State) (w : Width) (q r : BitVec w.bits) :
    FlagEffects.quotients.Allow s.flags (s.divideGives w q r).flags := by
  rw [State.divideGives, State.setQuotRem_flags]
  exact s.flags.setUnknown_allow _

@[simp] theorem State.inPort_flags (s : State) (port : Word) (w : Width) : (s.inPort port w).flags = s.flags := by
  obtain ⟨g, n, h⟩ := s.inPort_eq port w
  rw [h]

@[simp] theorem State.jumpIf_flags (s : State) (c : Bool) (d : Byte) : (s.jumpIf c d).flags = s.flags := by
  cases c <;> rfl

/-- A divide that fails takes the interrupt with whatever status flags it was left: IF and TF are 0 and DF is as it was
(60_exceptions.md R231, R233). -/
theorem State.divideFails_flags (s : State) (w : Width) :
    (s.divideFails w).flags.df = s.flags.df ∧ (s.divideFails w).flags.ifl = false ∧
      (s.divideFails w).flags.tf = false := by
  cases w <;> exact ⟨rfl, rfl, rfl⟩

/-! ### Strings -/

/-- A repetition does to FLAGS what its elements do. -/
theorem State.string_allow {e : FlagEffects} {s t : State} {usesZf : Bool} {dst : State → List Nat}
    {elem : State → State} (hrefl : ∀ f, e.Allow f f) (helem : ∀ u : State, e.Allow u.flags (elem u).flags)
    (h : s.string usesZf dst elem = .next t) : e.Allow s.flags t.flags :=
  State.string_keeps (P := fun u => e.Allow s.flags u.flags) (fun u hu => hu.trans (helem u))
    (fun _ _ hv hu => (congrArg State.flags hv) ▸ hu) (hrefl _) h

theorem movsElement_allow (w : Width) (s : State) : FlagEffects.none.Allow s.flags (movsElement w s).flags :=
  (FlagEffects.none_refl _).of_eq (s.write_flags w _ _)

theorem cmpsElement_allow (w : Width) (s : State) : FlagEffects.sums.Allow s.flags (cmpsElement w s).flags :=
  s.flags.setSum_allow _

theorem scasElement_allow (w : Width) (s : State) : FlagEffects.sums.Allow s.flags (scasElement w s).flags :=
  s.flags.setSum_allow _

theorem lodsElement_allow (w : Width) (s : State) : FlagEffects.none.Allow s.flags (lodsElement w s).flags :=
  (FlagEffects.none_refl _).of_eq (s.write_flags w _ _)

theorem stosElement_allow (w : Width) (s : State) : FlagEffects.none.Allow s.flags (stosElement w s).flags :=
  (FlagEffects.none_refl _).of_eq (s.write_flags w _ _)

/-! ### The table -/

theorem allow_of_next {e : FlagEffects} {f : Flags} {t u : State}
    (h : (.next u : Host.Outcome State Fault Refusal) = .next t) (hu : e.Allow f u.flags) : e.Allow f t.flags :=
  Host.Outcome.next.inj h ▸ hu

/-- A row without a code other than `-`: FLAGS is as it was. -/
theorem allow_of_next_kept {f : Flags} {t u : State} (h : (.next u : Host.Outcome State Fault Refusal) = .next t)
    (hu : u.flags = f) : FlagEffects.none.Allow f t.flags :=
  allow_of_next h ((FlagEffects.none_refl f).of_eq hu)

/-- INTO changes FLAGS only where the interrupt is taken (44_control_transfer.md R207). -/
theorem exec_into_flags {s t : State} (h : exec .into s = .next t) :
    t.flags = if s.flags.of then s.flags.masked else s.flags := by
  obtain rfl := Host.Outcome.next.inj ((exec_into s).symm.trans h)
  split <;> rfl

/-- Every row of the table, but for a divide that ends in the divide error (10 R34). -/
theorem exec_allow {i : Instr} {s t : State} (h : exec i s = .next t) (hd : divideErrorDue i s = false) :
    (affectedFlags i).Allow s.flags t.flags := by
  cases i with
  -- data transfer
  | movRmReg d w reg rm => cases d <;> exact allow_of_next_kept h (s.write_flags w _ _)
  | movRmImm | movRegImm | movAccMem | movMemAcc | movRmSreg => exact allow_of_next_kept h (s.write_flags _ _ _)
  | popRm rm => exact allow_of_next_kept h (s.popped.write_flags _ _ _)
  | xchgRmReg w reg rm => exact allow_of_next_kept h ((State.write_flags _ w _ _).trans (s.write_flags w _ _))
  | movSregRm sr rm | popSreg sr =>
    cases sr with
    | cs => cases h
    | es | ss | ds => exact allow_of_next_kept h rfl
  | pushRm rm =>
    rcases rm with r | m
    · cases r <;> exact allow_of_next_kept h rfl
    · exact allow_of_next_kept h rfl
  | pushReg reg => cases reg <;> exact allow_of_next_kept h rfl
  | pushSreg | popReg | xchgAccReg | outFixed | xlat | lea | lds | les | lahf | pushf | cbw | cwd =>
    exact allow_of_next_kept h rfl
  | inFixed w p => exact allow_of_next_kept h (s.inPort_flags _ w)
  | inVariable w =>
    rw [← exec_inVariable_next h, State.inPort_flags]
    exact FlagEffects.none_refl _
  | outVariable w =>
    rw [← exec_outVariable_next h]
    exact FlagEffects.none_refl _
  | sahf => exact allow_of_next h ⟨rfl, rfl, rfl, rfl, trivial, trivial, trivial, trivial, trivial⟩
  | popf | iret =>
    exact allow_of_next h ⟨trivial, trivial, trivial, trivial, trivial, trivial, trivial, trivial, trivial⟩
  -- arithmetic and logic
  | addRmReg | adcRmReg | subRmReg | sbbRmReg | cmpRmReg | andRmReg | testRmReg | orRmReg | xorRmReg =>
    exact allow_of_next h (s.binaryRmReg_allow rfl)
  | addRmImm | adcRmImm | subRmImm | sbbRmImm | cmpRmImm | andRmImm | testRmImm | orRmImm | xorRmImm | addAccImm | adcAccImm
  | subAccImm | sbbAccImm | cmpAccImm | andAccImm | testAccImm | orAccImm | xorAccImm =>
    exact allow_of_next h (s.binary_allow rfl)
  | incRm | incReg | decRm | decReg => exact allow_of_next h (s.incDec_allow _ _ _)
  | neg w rm => exact allow_of_next h ((s.flags.setSum_allow _).of_eq (State.write_flags _ w _ _))
  | not w rm => exact allow_of_next_kept h (s.write_flags w _ _)
  | aaa | aas => exact allow_of_next h (s.flags.setAscii_allow _ _)
  | daa | das => exact allow_of_next h (s.flags.setDecimal_allow _ _ _ _)
  | mul w | imul w => exact allow_of_next h ((s.flags.setMul_allow _ _).of_eq (State.setAccDouble_flags _ w _))
  | aam base => exact allow_of_next ((exec_aam_of_fits hd).symm.trans h) (s.flags.setBase_allow _ _)
  | aad base => exact allow_of_next h (s.flags.setBase_allow _ _)
  | div w rm =>
    obtain ⟨q, r, hgives⟩ := exec_div_of_fits hd
    exact allow_of_next (hgives.symm.trans h) (s.divideGives_allow w q r)
  | idiv w rm =>
    obtain ⟨q, r, hgives⟩ := exec_idiv_of_fits hd
    exact allow_of_next (hgives.symm.trans h) (s.divideGives_allow w q r)
  | shl | shr | sar | rol | ror | rcl | rcr => exact allow_of_next h (s.shift_allow rfl)
  -- strings
  | movs w => exact State.string_allow FlagEffects.none_refl (movsElement_allow w) h
  | cmps w => exact State.string_allow FlagEffects.sums_refl (cmpsElement_allow w) h
  | scas w => exact State.string_allow FlagEffects.sums_refl (scasElement_allow w) h
  | lods w => exact State.string_allow FlagEffects.none_refl (lodsElement_allow w) h
  | stos w => exact State.string_allow FlagEffects.none_refl (stosElement_allow w) h
  -- transfers of control
  | callRel | callRm | callFar | callFarMem | jmpRel | jmpShort | jmpRm | jmpFar | jmpFarMem | ret | retImm | retFar
  | retFarImm => exact allow_of_next_kept h rfl
  | je | jl | jle | jb | jbe | jp | jo | js | jne | jnl | jnle | jnb | jnbe | jnp | jno | jns | jcxz =>
    exact allow_of_next_kept h (s.jumpIf_flags _ _)
  | loop | loopz | loopnz => exact allow_of_next_kept h (s.decCx.jumpIf_flags _ _)
  | int | int3 => exact allow_of_next h s.flags.masked_allow
  | into =>
    refine allow_of_next ((exec_into s).symm.trans h) ?_
    split <;> exact ⟨rfl, rfl, trivial, trivial, rfl, rfl, rfl, rfl, rfl⟩
  -- processor control
  | clc | stc | cld | std | cli | sti => exact allow_of_next h ⟨rfl, rfl, rfl, rfl, rfl, rfl, rfl, rfl, rfl⟩
  | cmc => exact allow_of_next h ⟨rfl, rfl, rfl, rfl, rfl, rfl, rfl, rfl, trivial⟩
  | hlt | esc | rep | lock | seg => exact allow_of_next_kept h rfl
  | wait =>
    refine allow_of_next_kept ((exec_wait s).symm.trans h) ?_
    split <;> rfl

end Sys2Proof.Machine

open Sys2Proof Sys2Proof.Machine

/-- Settles O9: the table row by row, the divide error by what a failing divide does, INTO by its two cases. -/
theorem affectedFlagsTable : Obligations.AffectedFlagsTable := by
  intro i s t h
  refine ⟨exec_allow h, fun hd => ?_, fun hi hof => ?_, fun hi hof => ?_⟩
  · obtain ⟨w, hfails⟩ := exec_of_divideErrorDue hd
    obtain rfl := Host.Outcome.next.inj (hfails.symm.trans h)
    exact s.divideFails_flags w
  · rw [exec_into_flags (hi ▸ h), if_neg (by simp [hof])]
  · rw [exec_into_flags (hi ▸ h), if_pos hof]
    rfl
end

section
/-! PROOFS. Bytes and words in memory, and the stack (20_memory.md R41, R43, R44, R56, R58). -/

namespace Sys2Proof.Machine

/-! ### Bytes of words -/

theorem State.readByte_writeWord_lo (s : State) (hs : s.mem.wf = true) (sg off v : Word) :
    (s.writeWord sg off v).readByte sg off = loByte v := by
  have hword := s.readWord_writeWord_same hs sg off v
  have hbytes := congrArg loByte hword
  rwa [State.readWord, loByte_append] at hbytes

theorem State.readByte_writeWord_hi (s : State) (hs : s.mem.wf = true) (sg off v : Word) :
    (s.writeWord sg off v).readByte sg (off + 1) = hiByte v := by
  have hword := s.readWord_writeWord_same hs sg off v
  have hbytes := congrArg hiByte hword
  rwa [State.readWord, hiByte_append] at hbytes

/-- Storing a word is storing its two bytes, the low one first (20 R44). -/
theorem State.writeWord_append (s : State) (sg off : Word) (hi lo : Byte) :
    s.writeWord sg off (hi ++ lo) = (s.writeByte sg off lo).writeByte sg (off + 1) hi := by
  rw [State.writeWord, loByte_append, hiByte_append]

/-! ### The stack -/

/-- The bytes of one pushed word are the two at the lowered SP (20 R56). -/
theorem State.pushBytes_one (s : State) :
    s.pushBytes 1 = [phys s.seg.ss (s.gpr.sp - 2 + 1), phys s.seg.ss (s.gpr.sp - 2)] := by
  have hsp : s.gpr.sp - 2 + 1 = s.gpr.sp - 1 := by bv_omega
  rw [hsp]
  rfl

theorem State.mem_pushBytes_one (s : State) (a : Nat) :
    a ∈ s.pushBytes 1 ↔ a ∈ [phys s.seg.ss (s.gpr.sp - 2), phys s.seg.ss (s.gpr.sp - 2 + 1)] := by
  rw [s.pushBytes_one]
  exact (List.Perm.swap ..).mem_iff

theorem State.push_remembers (s : State) (v : Word) : s.Remembers (s.push v) (s.pushBytes 1) := fun a =>
  (State.writeWord_remembers (s.setSp (s.gpr.sp - 2)) _ _ v a).trans
    (or_congr_right (and_congr_left' (s.mem_pushBytes_one a).symm))

theorem State.push_pushedOnly (s : State) (hs : s.mem.wf = true) (v : Word) : s.PushedOnly (s.push v) [v] :=
  ⟨s.push_pushed hs v, s.push_remembers v, rfl⟩

/-- A pop after a push finds SP where it was (20 R56). -/
theorem State.push_popped_gpr (s : State) (v : Word) : (s.push v).popped.gpr = s.gpr := by
  rw [State.popped_gpr, State.push_gpr, BitVec.sub_add_cancel]

end Sys2Proof.Machine

open Sys2Proof Sys2Proof.Machine

/-- Settles O19: `phys` and `readByte` are written so. -/
theorem physicalAddressFormation : Obligations.PhysicalAddressFormation := fun _ _ _ => ⟨rfl, rfl⟩

/-- Settles O22: a word is stored as its two bytes, so each view is a word or a byte read back after a word store. -/
theorem mixedWidthViews : Obligations.MixedWidthViews := by
  intro s sg off hi lo hs
  refine ⟨?_, ?_, ?_⟩
  · rw [s.readByte_writeWord_lo hs, loByte_append]
  · rw [s.readByte_writeWord_hi hs, hiByte_append]
  · rw [← s.writeWord_append, s.readWord_writeWord_same hs]

/-- Settles O24: the word lies where SP then points, and popping it puts SP back. -/
theorem stackPrimitives : Obligations.StackPrimitives := fun s v hs =>
  ⟨s.push_pushedOnly hs v, rfl, rfl, s.push_top hs v, s.push_popped_gpr v⟩
end

section
/-! PROOFS. Say once what executing one instruction can store: `exec_stored`. Memory changes at the bytes `storesOf`
names, and the invariant is kept (20_memory.md R40, R54, R56, R57). -/

namespace Sys2Proof.Machine

/-! ### Stores to a list of bytes -/

/-- From `s` to `t` nothing was stored outside the bytes `l`, and the invariant is kept. -/
structure State.Stored (s t : State) (l : List Nat) : Prop where
  memory : s.mem.SameOff t.mem l
  inv : s.Inv → t.Inv

/-- What changes neither memory nor the record of stores. -/
theorem State.Stored.of_kept {s t : State} {l : List Nat} (hm : t.mem = s.mem) (hc : t.staleCode = s.staleCode) :
    s.Stored t l where
  memory _ _ := by rw [hm]
  inv h := by rwa [State.Inv, hm, hc]

/-- A transfer of control empties the record of stores (20 R54). -/
theorem State.Stored.of_transfer {s t : State} {l : List Nat} (hm : t.mem = s.mem) (hc : t.staleCode = []) :
    s.Stored t l where
  memory _ _ := by rw [hm]
  inv h := ⟨hm ▸ h.1, fun _ ha => absurd (hc ▸ ha) List.not_mem_nil⟩

theorem State.Stored.refl (s : State) (l : List Nat) : s.Stored s l := .of_kept rfl rfl

theorem State.Stored.trans {s t u : State} {l : List Nat} (h : s.Stored t l) (k : t.Stored u l) : s.Stored u l where
  memory a ha := (k.memory a ha).trans (h.memory a ha)
  inv := k.inv ∘ h.inv

theorem State.Stored.after_kept {s t u : State} {l : List Nat} (h : t.Stored u l) (hm : t.mem = s.mem)
    (hc : t.staleCode = s.staleCode) : s.Stored u l :=
  .trans (.of_kept hm hc) h

theorem State.Stored.mono {s t : State} {l l' : List Nat} (h : s.Stored t l) (hl : l ⊆ l') : s.Stored t l' where
  memory a ha := h.memory a fun ha' => ha (hl ha')
  inv := h.inv

/-- Stores that are remembered where they fall inside the prefetch window keep the invariant: the window lies in memory. -/
theorem State.Inv.of_remembers {s t : State} {l : List Nat} (h : s.Inv) (hm : t.mem.wf = true) (hc : s.Remembers t l) :
    t.Inv := by
  refine ⟨hm, fun a ha => ?_⟩
  rcases (hc a).mp ha with hold | ⟨-, hwindow⟩
  · exact h.2 a hold
  · exact s.prefetchWindow_lt a hwindow

/-! ### The shared operations -/

theorem State.write_stored (s : State) (w : Width) (p : Place) (v : BitVec w.bits) :
    s.Stored (s.write w p v) (p.bytes w) where
  memory := s.write_sameOff w p v
  inv h := h.of_remembers (s.write_wf h.1 w p v) (s.write_remembers w p v)

theorem State.push_stored (s : State) (v : Word) : s.Stored (s.push v) (s.pushBytes 1) where
  memory a ha := s.push_sameOff v a (mt (s.mem_pushBytes_one a).mpr ha)
  inv h := h.of_remembers (s.push_wf h.1 v) (s.push_remembers v)

/-- After one push the bytes of `n` more lie among those of `n + 1` (20 R56). -/
theorem State.push_pushBytes_subset (s : State) (v : Word) (n : Nat) :
    (s.push v).pushBytes n ⊆ s.pushBytes (n + 1) := by
  intro a ha
  obtain ⟨k, hk, rfl⟩ := List.mem_map.mp ha
  refine List.mem_map.mpr ⟨k + 2, ?_, ?_⟩
  · rw [List.mem_range] at hk ⊢
    omega
  · have hsp : s.gpr.sp - BitVec.ofNat 16 (k + 2 + 1) = s.gpr.sp - 2 - BitVec.ofNat 16 (k + 1) := by bv_omega
    rw [hsp]
    rfl

theorem State.pushBytes_mono (s : State) {m n : Nat} (h : m ≤ n) : s.pushBytes m ⊆ s.pushBytes n :=
  List.map_subset _ (List.range_subset.mpr (by omega))

/-- One push, then what stores to the bytes of `n` more. -/
theorem State.Stored.after_push {s t : State} {v : Word} {n : Nat} (h : (s.push v).Stored t ((s.push v).pushBytes n)) :
    s.Stored t (s.pushBytes (n + 1)) :=
  ((s.push_stored v).mono (s.pushBytes_mono (Nat.le_add_left 1 n))).trans (h.mono (s.push_pushBytes_subset v n))

theorem State.push2_stored (s : State) (v v' : Word) : s.Stored ((s.push v).push v') (s.pushBytes 2) :=
  .after_push ((s.push v).push_stored v')

theorem State.push3_stored (s : State) (v v' v'' : Word) :
    s.Stored (((s.push v).push v').push v'') (s.pushBytes 3) :=
  .after_push ((s.push v).push2_stored v' v'')

/-- The interrupt sequence stores its frame of three words (60_exceptions.md R233). -/
theorem State.interrupt_stored (s : State) (k : Byte) (ret : Word) : s.Stored (s.interrupt k ret) (s.pushBytes 3) :=
  (s.push3_stored s.flags.image s.seg.cs ret).trans (.of_transfer (s.interrupt_mem k ret) rfl)

theorem State.jump_stored (s : State) (ip : Word) (l : List Nat) : s.Stored (s.jump ip) l :=
  .of_transfer rfl rfl

theorem State.jumpFar_stored (s : State) (cs ip : Word) (l : List Nat) : s.Stored (s.jumpFar cs ip) l :=
  .of_transfer rfl rfl

theorem State.jumpIf_stored (s : State) (c : Bool) (d : Byte) (l : List Nat) : s.Stored (s.jumpIf c d) l := by
  cases c
  · exact .refl s l
  · exact s.jump_stored _ l

/-- A divide that fails stores the frame of interrupt 0 only (60 R231). -/
theorem State.divideFails_stored (s : State) (w : Width) : s.Stored (s.divideFails w) (s.pushBytes 3) := by
  cases w <;> exact .after_kept (State.interrupt_stored _ _ _) rfl rfl

theorem State.divideGives_stored (s : State) (w : Width) (q r : BitVec w.bits) (l : List Nat) :
    s.Stored (s.divideGives w q r) l := by
  cases w <;> exact .of_kept rfl rfl

theorem State.setAccDouble_stored (s : State) (w : Width) (v : BitVec (w.bits + w.bits)) (l : List Nat) :
    s.Stored (s.setAccDouble w v) l := by
  cases w <;> exact .of_kept rfl rfl

theorem State.inPort_stored (s : State) (port : Word) (w : Width) (l : List Nat) : s.Stored (s.inPort port w) l := by
  obtain ⟨g, n, h⟩ := s.inPort_eq port w
  rw [h]
  exact .of_kept rfl rfl

/-- The one write of an operation that first computes flags. -/
theorem State.setFlags_write_stored (s : State) (f : Flags) (w : Width) (p : Place) (v : BitVec w.bits) :
    s.Stored ((s.setFlags f).write w p v) (p.bytes w) :=
  .after_kept ((s.setFlags f).write_stored w p v) rfl rfl

theorem State.drawn_setFlags_write_stored (s : State) (f : Flags) (w : Width) (p : Place) (v : BitVec w.bits) :
    s.Stored ((s.drawn.setFlags f).write w p v) (p.bytes w) :=
  .after_kept (s.drawn.setFlags_write_stored f w p v) rfl rfl

/-- A two-operand operation stores to its destination if it writes back. -/
theorem State.binary_stored (s : State) (op : BinOp) (w : Width) (p : Place) (b : BitVec w.bits) :
    s.Stored (s.binary op w p b) (if op.writesBack then p.bytes w else []) := by
  cases hop : op.writesBack with
  | false =>
    rw [s.binary_noWrite op w p b hop]
    exact .of_kept rfl rfl
  | true =>
    simp only [State.binary, hop, if_true]
    split
    · exact s.drawn_setFlags_write_stored _ w p _
    · exact s.setFlags_write_stored _ w p _

/-- Form RMR stores to the r/m operand where that is the destination (30_encoding.md R71). -/
theorem State.binaryRmReg_stored (s : State) (op : BinOp) (d : Dir) (w : Width) (reg : RegField) (rm : RM) :
    s.Stored (s.binaryRmReg op d w reg rm) (if op.writesBack then s.rmrBytes d w rm else []) := by
  cases d <;> exact s.binary_stored op w _ _

theorem State.incDec_stored (s : State) (up : Bool) (w : Width) (p : Place) :
    s.Stored (s.incDec up w p) (p.bytes w) :=
  s.setFlags_write_stored _ w p _

/-- A shift or rotate by 0 stores nothing (42_logic.md R140; log 22). -/
theorem State.shift_stored (s : State) (op : ShiftOp) (v : CountSel) (w : Width) (rm : RM) :
    s.Stored (s.shift op v w rm) (if s.shiftCount v = 0 then [] else (s.place rm).bytes w) := by
  rw [State.shift]
  split
  · exact .refl s _
  · exact s.drawn_setFlags_write_stored _ w _ _

/-! ### Elements of the string instructions -/

theorem movsElement_stored (w : Width) (s : State) : s.Stored (movsElement w s) (s.stringDst.bytes w) :=
  (s.write_stored w _ _).trans (.of_kept rfl rfl)

theorem cmpsElement_stored (w : Width) (s : State) : s.Stored (cmpsElement w s) [] :=
  .of_kept rfl rfl

theorem scasElement_stored (w : Width) (s : State) : s.Stored (scasElement w s) [] :=
  .of_kept rfl rfl

theorem lodsElement_stored (w : Width) (s : State) : s.Stored (lodsElement w s) [] :=
  (s.write_stored w accPlace _).trans (.of_kept rfl rfl)

theorem stosElement_stored (w : Width) (s : State) : s.Stored (stosElement w s) (s.stringDst.bytes w) :=
  (s.write_stored w _ _).trans (.of_kept rfl rfl)

/-- Without REP a string instruction is one element (43_string.md R161). -/
theorem State.string_of_rep_none (s : State) (h : s.pfx.rep = none) (usesZf : Bool) (dst : State → List Nat)
    (elem : State → State) : s.string usesZf dst elem = .next (elem s) := by
  rw [State.string, h]

theorem State.elementBytes_of_rep_none (s : State) (h : s.pfx.rep = none) (w : Width) :
    s.elementBytes w = s.stringDst.bytes w := by
  rw [State.elementBytes, h]
  rfl

/-! ### The inversion of `exec` -/

/-- The outcome of `exec` is known: what it stores is what the instruction stores. -/
theorem State.Stored.of_next {s t u : State} {l : List Nat}
    (h : (.next u : Host.Outcome State Fault Refusal) = .next t) (hu : s.Stored u l) : s.Stored t l :=
  Host.Outcome.next.inj h ▸ hu

theorem storesOf_of_divideErrorDue {i : Instr} {s : State} (hd : divideErrorDue i s = true) :
    storesOf i s = s.pushBytes 3 := by
  cases i with
  | div | idiv | aam => exact if_pos hd
  | _ => cases hd

/-- Every instruction but a repetition to the bytes it stores to. -/
theorem exec_stored {i : Instr} {s t : State} (hi : s.pfx.rep = none ∨ i.isStringPrimitive = false)
    (h : exec i s = .next t) : s.Stored t (storesOf i s) := by
  cases hd : divideErrorDue i s with
  | true =>
    obtain ⟨w, hfails⟩ := exec_of_divideErrorDue hd
    have hbytes : storesOf i s = s.pushBytes 3 := storesOf_of_divideErrorDue hd
    rw [hbytes]
    exact .of_next (hfails.symm.trans h) (s.divideFails_stored w)
  | false =>
  cases i with
  -- data transfer
  | movRmReg d w reg rm => cases d <;> exact .of_next h (s.write_stored w _ _)
  | movRmImm | movMemAcc | movRmSreg => exact .of_next h (s.write_stored _ _ _)
  | movRegImm reg imm => exact .of_next h (s.write_stored imm.width (.reg reg) _)
  | movAccMem w => exact .of_next h (s.write_stored w accPlace _)
  | movSregRm sr rm | popSreg sr =>
    cases sr with
    | cs => cases h
    | es | ss | ds => exact .of_next h (.of_kept rfl rfl)
  | pushRm rm =>
    rcases rm with r | m
    · cases r with
      | spAh => exact .of_next h (.after_kept (s.drawn.push_stored _) rfl rfl)
      | _ => exact .of_next h (s.push_stored _)
    · exact .of_next h (s.push_stored _)
  | pushReg reg => cases reg <;> exact .of_next h (s.push_stored _)
  | pushSreg | pushf => exact .of_next h (s.push_stored _)
  | popRm rm =>
    exact .of_next h (.after_kept (s.popped.write_stored .word _ _) rfl rfl)
  | xchgRmReg w reg rm =>
    exact .of_next h ((s.write_stored w _ _).trans ((State.write_stored _ w (.reg reg) _).mono (List.nil_subset _)))
  | inFixed w p => exact .of_next h (s.inPort_stored _ w _)
  | inVariable w =>
    rw [← exec_inVariable_next h]
    exact s.inPort_stored _ w _
  | outVariable w =>
    rw [← exec_outVariable_next h]
    exact .of_kept rfl rfl
  | popReg | xchgAccReg | outFixed | xlat | lea | lds | les | lahf | sahf | popf =>
    exact .of_next h (.of_kept rfl rfl)
  -- arithmetic and logic
  | addRmReg | adcRmReg | subRmReg | sbbRmReg | cmpRmReg | andRmReg | testRmReg | orRmReg | xorRmReg =>
    exact .of_next h (s.binaryRmReg_stored _ _ _ _ _)
  | addRmImm | adcRmImm | subRmImm | sbbRmImm | cmpRmImm | andRmImm | testRmImm | orRmImm | xorRmImm | addAccImm | adcAccImm
  | subAccImm | sbbAccImm | cmpAccImm | andAccImm | testAccImm | orAccImm | xorAccImm =>
    exact .of_next h (s.binary_stored _ _ _ _)
  | incRm | incReg | decRm | decReg => exact .of_next h (s.incDec_stored _ _ _)
  | neg w rm => exact .of_next h (s.setFlags_write_stored _ w _ _)
  | not w rm => exact .of_next h (s.write_stored w _ _)
  | mul w | imul w =>
    exact .of_next h (.after_kept (State.setAccDouble_stored _ w _ _) rfl rfl)
  | aam base => exact .of_next ((exec_aam_of_fits hd).symm.trans h) (.of_kept rfl rfl)
  | div w rm =>
    obtain ⟨q, r, hgives⟩ := exec_div_of_fits hd
    exact .of_next (hgives.symm.trans h) (s.divideGives_stored w q r _)
  | idiv w rm =>
    obtain ⟨q, r, hgives⟩ := exec_idiv_of_fits hd
    exact .of_next (hgives.symm.trans h) (s.divideGives_stored w q r _)
  | aaa | daa | aas | das | aad | cbw | cwd => exact .of_next h (.of_kept rfl rfl)
  | shl | shr | sar | rol | ror | rcl | rcr => exact .of_next h (s.shift_stored _ _ _ _)
  -- strings
  | movs w =>
    have hrep : s.pfx.rep = none := hi.resolve_right nofun
    rw [storesOf, s.elementBytes_of_rep_none hrep]
    exact .of_next ((s.string_of_rep_none hrep ..).symm.trans h) (movsElement_stored w s)
  | stos w =>
    have hrep : s.pfx.rep = none := hi.resolve_right nofun
    rw [storesOf, s.elementBytes_of_rep_none hrep]
    exact .of_next ((s.string_of_rep_none hrep ..).symm.trans h) (stosElement_stored w s)
  | cmps w => exact .of_next ((s.string_of_rep_none (hi.resolve_right nofun) ..).symm.trans h) (cmpsElement_stored w s)
  | scas w => exact .of_next ((s.string_of_rep_none (hi.resolve_right nofun) ..).symm.trans h) (scasElement_stored w s)
  | lods w => exact .of_next ((s.string_of_rep_none (hi.resolve_right nofun) ..).symm.trans h) (lodsElement_stored w s)
  -- transfers of control
  | callRel | callRm => exact .of_next h ((s.push_stored _).trans (State.jump_stored _ _ _))
  | callFar | callFarMem => exact .of_next h ((s.push2_stored _ _).trans (State.jumpFar_stored _ _ _ _))
  | jmpRel | jmpShort | jmpRm | jmpFar | jmpFarMem | ret | retImm | retFar | retFarImm | iret =>
    exact .of_next h (.of_transfer rfl rfl)
  | je | jl | jle | jb | jbe | jp | jo | js | jne | jnl | jnle | jnb | jnbe | jnp | jno | jns | jcxz =>
    exact .of_next h (s.jumpIf_stored _ _ _)
  | loop | loopz | loopnz =>
    exact .of_next h (.after_kept (s.decCx.jumpIf_stored _ _ _) rfl rfl)
  | int | int3 => exact .of_next h (s.interrupt_stored _ _)
  | into =>
    refine .of_next ((exec_into s).symm.trans h) ?_
    rw [storesOf]
    split
    · exact s.interrupt_stored _ _
    · exact .refl s _
  -- processor control
  | clc | cmc | stc | cld | std | cli | sti | hlt | esc | rep | lock | seg =>
    exact .of_next h (.of_kept rfl rfl)
  | wait =>
    refine .of_next ((exec_wait s).symm.trans h) ?_
    split <;> exact .of_kept rfl rfl

end Sys2Proof.Machine
end

section
/-! PROOFS. Every step keeps the invariant: each operation of the host and of RESET does, each instruction does
(`exec_stored`), and so do a repetition, the prefixes and the boundary (20_memory.md R40, R41). -/

namespace Sys2Proof.Machine

/-! ### Operations of the boundary -/

/-- Where the bytes fetched ahead are discarded nothing is remembered (20 R54). -/
theorem State.inv_of_discarded {s : State} (hm : s.mem.wf = true) (hc : s.staleCode = []) : s.Inv :=
  ⟨hm, fun _ ha => absurd (hc ▸ ha) List.not_mem_nil⟩

theorem State.agentsWrite_inv {s : State} (h : s.Inv) : s.agentsWrite.Inv :=
  h.of_remembers (s.agentsWrite_wf h.1) s.agentsWrite_remembers

theorem State.pastBoundary_inv {s : State} (h : s.Inv) : s.pastBoundary.Inv := by
  rw [State.Inv, State.pastBoundary_mem, State.pastBoundary_staleCode]
  split
  · exact h
  · exact State.agentsWrite_inv h

theorem State.scramble_inv {s : State} {l : List Nat} (h : s.Inv) (hl : ∀ a ∈ l, a < Config.memBytes) :
    (s.scramble l).Inv := by
  obtain ⟨m, c, heq, -, hwf, hc⟩ := s.scramble_spec l
  rw [heq]
  exact h.of_remembers (hwf hl h.1) hc

theorem State.interrupt_inv {s : State} (h : s.Inv) (k : Byte) (ret : Word) : (s.interrupt k ret).Inv :=
  (s.interrupt_stored k ret).inv h

theorem State.resetSequence_inv {s : State} (h : s.Inv) : s.resetSequence.Inv := State.inv_of_discarded h.1 rfl

theorem State.takeReset_inv {s : State} (h : s.Inv) : s.takeReset.Inv :=
  State.inv_of_discarded (s.takeReset_wf h.1) rfl

theorem State.abort_inv {s t : State} {l : List Nat} (h : s.Inv) (hl : ∀ a ∈ l, a < Config.memBytes) :
    (s.abort t l).Inv :=
  State.inv_of_discarded (s.abort_wf t l hl h.1) rfl

theorem State.takeExternal_inv {s : State} (h : s.Inv) : s.takeExternal.Inv := by
  have hpast := State.pastBoundary_inv h
  rw [State.takeExternal]
  split
  · exact State.interrupt_inv (s := { s.pastBoundary with nmiPending := false }) hpast _ _
  · split
    · exact State.interrupt_inv hpast _ _
    · exact hpast

theorem State.takeTrap_inv {s : State} (h : s.Inv) : s.takeTrap.Inv := by
  rw [State.takeTrap]
  split
  · exact State.interrupt_inv h _ _
  · exact h

theorem State.boundary_inv {s : State} (h : s.Inv) : s.boundary.Inv := by
  rw [State.boundary]
  split
  · split
    · exact State.pastBoundary_inv h
    · exact State.takeTrap_inv (State.takeExternal_inv h)
  · exact State.resetSequence_inv (State.scramble_inv (State.pastBoundary_inv h) (s.pushBytes_lt _))
  · exact h
  · exact h

/-! ### Repetitions -/

/-- A repetition keeps the invariant if its elements do and store inside memory (43_string.md R161). -/
theorem repeatString_inv {elem : State → State} {dst : State → List Nat} {stop : State → Bool}
    (helem : ∀ u : State, u.Inv → (elem u).Inv) (hdst : ∀ u, ∀ a ∈ dst u, a < Config.memBytes) (n : Nat)
    {s t : State} (hs : s.Inv) (h : repeatString elem dst stop n s = .next t) : t.Inv := by
  induction n generalizing s with
  | zero => exact Host.Outcome.next.inj h ▸ hs
  | succ n ih =>
    have hone : (elem s).decCx.Inv := helem s hs
    have hpast := State.pastBoundary_inv hone
    rw [repeatString] at h
    split at h
    · exact Host.Outcome.next.inj h ▸ hone
    split at h
    · exact Host.Outcome.next.inj h ▸ hone
    split at h
    · split at h
      · exact Host.Outcome.next.inj h ▸ hone
      · cases h
    split at h
    · exact Host.Outcome.next.inj h ▸ hpast
    · have hopen := State.scramble_inv hpast (hdst (elem s).decCx)
      exact Host.Outcome.next.inj h ▸ hopen
    · exact ih hpast h
    · exact ih hpast h

theorem State.string_inv {usesZf : Bool} {dst : State → List Nat} {elem : State → State}
    (helem : ∀ u : State, u.Inv → (elem u).Inv) (hdst : ∀ u, ∀ a ∈ dst u, a < Config.memBytes) {s t : State}
    (hs : s.Inv) (h : s.string usesZf dst elem = .next t) : t.Inv := by
  rw [State.string] at h
  split at h
  · exact Host.Outcome.next.inj h ▸ helem s hs
  · exact repeatString_inv helem hdst _ hs h

/-! ### Instructions -/

/-- Every instruction keeps the invariant, repeated or not. -/
theorem exec_inv {i : Instr} {s t : State} (hs : s.Inv) (h : exec i s = .next t) : t.Inv := by
  cases hi : i.isStringPrimitive with
  | false => exact (exec_stored (.inr hi) h).inv hs
  | true =>
    cases i with
    | movs w =>
      exact State.string_inv (fun u => (movsElement_stored w u).inv) (fun u => u.stringDst.bytes_lt w) hs h
    | stos w =>
      exact State.string_inv (fun u => (stosElement_stored w u).inv) (fun u => u.stringDst.bytes_lt w) hs h
    | cmps w => exact State.string_inv (fun u => (cmpsElement_stored w u).inv) (fun _ => List.forall_mem_nil _) hs h
    | scas w => exact State.string_inv (fun u => (scasElement_stored w u).inv) (fun _ => List.forall_mem_nil _) hs h
    | lods w => exact State.string_inv (fun u => (lodsElement_stored w u).inv) (fun _ => List.forall_mem_nil _) hs h
    | _ => cases hi

theorem abortInstr_inv {i : Instr} {s t : State} (hs : s.Inv) (h : abortInstr i s = .next t) : t.Inv := by
  obtain ⟨_, -, rfl⟩ := abortInstr_next h
  exact State.abort_inv hs (storesOf_lt i s)

/-- Fetching moves IP only. -/
theorem State.fetch_ok {s s' : State} {i : Instr} (h : s.fetch = .ok (i, s')) : ∃ ip, s' = s.setIp ip := by
  rw [State.fetch] at h
  split at h
  · cases h
  · dsimp only at h
    split at h
    · cases h
    · cases h
      exact ⟨_, rfl⟩

/-- A property that moving IP, every instruction and `finish` keep is kept by a whole instruction with its prefixes
(30_encoding.md R75). -/
theorem runWith_keeps {P : State → Prop} {finish : Instr → State → Host.Outcome State Fault Refusal}
    (hip : ∀ u ip, P u → P (u.setIp ip)) (hexec : ∀ i u v, P u → exec i u = .next v → P v)
    (hfinish : ∀ i u v, P u → finish i u = .next v → P v) (fuel : Nat) {s t : State} (hs : P s)
    (h : runWith finish fuel s = .next t) : P t := by
  induction fuel generalizing s with
  | zero => cases h
  | succ fuel ih =>
    rw [runWith] at h
    split at h
    · cases h
    next i s1 hfetch =>
      obtain ⟨ip, rfl⟩ := State.fetch_ok hfetch
      have hs1 := hip s ip hs
      split at h
      · split at h
        next s2 hprefix => exact ih (hexec i _ s2 hs1 hprefix) h
        · cases h
        · cases h
      · split at h
        · cases h
        · exact hfinish i _ t hs1 h

theorem runWith_inv {finish : Instr → State → Host.Outcome State Fault Refusal}
    (hfinish : ∀ i (u v : State), u.Inv → finish i u = .next v → v.Inv) (fuel : Nat) {s t : State} (hs : s.Inv)
    (h : runWith finish fuel s = .next t) : t.Inv :=
  runWith_keeps (P := State.Inv) (fun _ _ hu => hu) (fun _ _ _ => exec_inv) hfinish fuel hs h

/-! ### The step -/

theorem finishInstr_inv {o : Host.Outcome State Fault Refusal} {t : State} (ho : ∀ u, o = .next u → u.Inv)
    (h : finishInstr o = .next t) : t.Inv := by
  cases o with
  | next u =>
    have hended : u.endInstr.Inv := ho u rfl
    rw [finishInstr] at h
    split at h
    · cases h
    · exact Host.Outcome.next.inj h ▸ State.boundary_inv hended
  | fault | refused => cases h

/-- A step that reaches its boundary: a halted machine, or a whole instruction (60_exceptions.md R234). -/
theorem State.inv_of_boundary_step {s t : State} (hs : s.Inv)
    (h : (if s.halted then .next s.idle.boundary else finishInstr (runInstr Config.codeSegmentBytes s.beginInstr)) =
      (.next t : Host.Outcome State Fault Refusal)) : t.Inv := by
  split at h
  · have hidle : s.idle.Inv := hs
    exact Host.Outcome.next.inj h ▸ State.boundary_inv hidle
  · have hbegun : s.beginInstr.Inv := hs
    exact finishInstr_inv (fun _ hrun => runWith_inv (fun _ _ _ => exec_inv) _ hbegun hrun) h

theorem step_inv {s t : State} (hs : s.Inv) (h : step s = .next t) : t.Inv := by
  have hbegun : s.beginInstr.Inv := hs
  rw [step, stepOf] at h
  split at h
  · exact Host.Outcome.next.inj h ▸ State.takeReset_inv hs
  · split at h
    · exact Host.Outcome.next.inj h ▸ State.takeReset_inv hs
    · exact runWith_inv (fun _ _ _ => abortInstr_inv) _ hbegun h
  · exact State.inv_of_boundary_step hs h
  · exact State.inv_of_boundary_step hs h

end Sys2Proof.Machine

open Sys2Proof Sys2Proof.Machine

/-- Settles O6: RESET, a halted step and a whole instruction each keep the invariant. -/
theorem stepKeepsInvariant : Obligations.StepKeepsInvariant := fun _ _ => step_inv
end

section
/-! PROOFS. LOCK in a run without other agents: no instruction looks at it, and it lasts through the instruction
(20_memory.md R53; 45_processor_control.md R220). Its one use, to keep other agents off at the boundaries of a repetition,
has nothing to keep off there. -/

namespace Sys2Proof.Machine

/-! ### Changing LOCK alone -/

/-- The state with LOCK asserted or not, and nothing else changed. -/
def State.withLock (s : State) (b : Bool) : State := { s with pfx := { s.pfx with lock := b } }

/-- An outcome with its next state changed. -/
def onNext (f : State → State) : Host.Outcome State Fault Refusal → Host.Outcome State Fault Refusal
  | .next t => .next (f t)
  | .fault r => .fault r
  | .refused r => .refused r

/-- Two outcomes that depend on one condition correspond if they do in both cases. -/
theorem ite_onNext {c : Prop} [Decidable c] {f : State → State} {x y x' y' : Host.Outcome State Fault Refusal}
    (hx : x' = onNext f x) (hy : y' = onNext f y) : (if c then x' else y') = onNext f (if c then x else y) := by
  split
  · exact hx
  · exact hy

/-! ### The shared operations -/

variable (s : State) (b : Bool)

theorem State.write_withLock (w : Width) (p : Place) (v : BitVec w.bits) :
    (s.withLock b).write w p v = (s.write w p v).withLock b := by
  cases w <;> cases p <;> rfl

theorem State.binary_withLock (op : BinOp) (w : Width) (p : Place) (v : BitVec w.bits) :
    (s.withLock b).binary op w p v = (s.binary op w p v).withLock b := by
  cases hop : op.writesBack with
  | false =>
    rw [State.binary_noWrite _ op w p v hop, State.binary_noWrite _ op w p v hop]
    rfl
  | true =>
    simp only [State.binary, hop, if_true]
    cases op.draws with
    | false => exact State.write_withLock (s.setFlags _) b w p _
    | true => exact State.write_withLock (s.drawn.setFlags _) b w p _

theorem State.binaryRmReg_withLock (op : BinOp) (d : Dir) (w : Width) (reg : RegField) (rm : RM) :
    (s.withLock b).binaryRmReg op d w reg rm = (s.binaryRmReg op d w reg rm).withLock b := by
  cases d <;> exact s.binary_withLock b op w _ _

theorem State.incDec_withLock (up : Bool) (w : Width) (p : Place) :
    (s.withLock b).incDec up w p = (s.incDec up w p).withLock b :=
  State.write_withLock (s.setFlags _) b w p _

theorem State.shift_withLock (op : ShiftOp) (v : CountSel) (w : Width) (rm : RM) :
    (s.withLock b).shift op v w rm = (s.shift op v w rm).withLock b := by
  have hcount : (s.withLock b).shiftCount v = s.shiftCount v := by cases v <;> rfl
  rw [State.shift, State.shift, hcount]
  split
  · rfl
  · exact State.write_withLock (s.drawn.setFlags _) b w (s.place rm) _

theorem State.setAccDouble_withLock (w : Width) (v : BitVec (w.bits + w.bits)) :
    (s.withLock b).setAccDouble w v = (s.setAccDouble w v).withLock b := by
  cases w <;> rfl

theorem State.divideGives_withLock (w : Width) (q r : BitVec w.bits) :
    (s.withLock b).divideGives w q r = (s.divideGives w q r).withLock b := by
  cases w <;> rfl

theorem State.divideFails_withLock (w : Width) : (s.withLock b).divideFails w = (s.divideFails w).withLock b := by
  cases w <;> rfl

theorem State.portTaken_withLock : (s.withLock b).portTaken = s.portTaken.withLock b := by
  simp only [State.portTaken, State.withLock]
  split <;> rfl

theorem State.inPort_withLock (port : Word) (w : Width) :
    (s.withLock b).inPort port w = (s.inPort port w).withLock b := by
  have htaken (t : State) := t.portTaken_withLock b
  have hlog : (s.withLock b).logIo (.read port w) = (s.logIo (.read port w)).withLock b := rfl
  cases w <;> simp only [State.inPort, hlog, htaken] <;> exact State.write_withLock _ b _ _ _

theorem State.jumpIf_withLock (c : Bool) (d : Byte) : (s.withLock b).jumpIf c d = (s.jumpIf c d).withLock b := by
  cases c <;> rfl

/-! ### Repetitions -/

theorem State.scramble_withLock (l : List Nat) : (s.withLock b).scramble l = (s.scramble l).withLock b := by
  induction l generalizing s with
  | nil => rfl
  | cons a rest ih => exact ih (s.drawn.storeByte a (loByte s.freeValue))

theorem State.externalAgents_eq_false_iff : s.externalAgents = false ↔ ∀ h ∈ s.inputs, h.writes = [] := by
  simp [State.externalAgents]

theorem State.input_writes_of_alone (h : s.externalAgents = false) : s.input.writes = [] := by
  rw [State.input]
  split
  next r _ hin => exact s.externalAgents_eq_false_iff.mp h r (by simp [hin])
  · rfl

/-- Where nothing but the processor writes memory, a boundary passes with LOCK as without it. -/
theorem State.pastBoundary_withLock (h : s.externalAgents = false) :
    (s.withLock b).pastBoundary = s.pastBoundary.withLock b := by
  have hw := s.input_writes_of_alone h
  rw [State.pastBoundary_alone _ hw, (s.withLock b).pastBoundary_alone hw]
  rfl

theorem State.pastBoundary_alone_externalAgents (h : s.externalAgents = false) :
    s.pastBoundary.externalAgents = false := by
  rw [State.pastBoundary_alone _ (s.input_writes_of_alone h)]
  exact (State.externalAgents_eq_false_iff _).mpr fun r hr =>
    s.externalAgents_eq_false_iff.mp h r (List.mem_of_mem_tail hr)

/-- A repetition whose elements do not look at LOCK does not either, where there are no other agents (43_string.md R161). -/
theorem repeatString_withLock {elem : State → State} {dst : State → List Nat} {stop : State → Bool}
    (helem : ∀ u : State, elem (u.withLock b) = (elem u).withLock b) (hinputs : ∀ u, (elem u).inputs = u.inputs)
    (hdst : ∀ u : State, dst (u.withLock b) = dst u) (hstop : ∀ u : State, stop (u.withLock b) = stop u) (n : Nat)
    (h : s.externalAgents = false) :
    repeatString elem dst stop n (s.withLock b) = onNext (·.withLock b) (repeatString elem dst stop n s) := by
  induction n generalizing s with
  | zero => rfl
  | succ n ih =>
    have hone : (elem s).decCx.externalAgents = false := by
      rwa [State.externalAgents, State.decCx_inputs, hinputs]
    have hdec : (elem (s.withLock b)).decCx = (elem s).decCx.withLock b := by rw [helem]; rfl
    have hpast := State.pastBoundary_withLock _ b hone
    have hopen := State.scramble_withLock (elem s).decCx.pastBoundary b (dst (elem s).decCx)
    have hrest := ih _ (State.pastBoundary_alone_externalAgents _ hone)
    simp only [repeatString, hdec, hstop, hdst, hpast, hopen]
    refine ite_onNext rfl (ite_onNext rfl (ite_onNext (ite_onNext rfl rfl) ?_))
    have hinput : ((elem s).decCx.pastBoundary.withLock b).input = (elem s).decCx.pastBoundary.input := rfl
    rw [hinput]
    split
    · rfl
    · rfl
    · exact hrest
    · exact hrest

theorem State.string_withLock {usesZf : Bool} {dst : State → List Nat} {elem : State → State}
    (helem : ∀ u : State, elem (u.withLock b) = (elem u).withLock b) (hinputs : ∀ u, (elem u).inputs = u.inputs)
    (hdst : ∀ u : State, dst (u.withLock b) = dst u) (h : s.externalAgents = false) :
    (s.withLock b).string usesZf dst elem = onNext (·.withLock b) (s.string usesZf dst elem) := by
  have hrep : (s.withLock b).pfx.rep = s.pfx.rep := rfl
  rw [State.string, State.string, hrep]
  split
  · exact congrArg Host.Outcome.next (helem s)
  · exact repeatString_withLock s b helem hinputs hdst (fun _ => rfl) _ h

/-! ### Elements of the string instructions -/

theorem movsElement_withLock (w : Width) : movsElement w (s.withLock b) = (movsElement w s).withLock b := by
  cases w <;> rfl

theorem lodsElement_withLock (w : Width) : lodsElement w (s.withLock b) = (lodsElement w s).withLock b := by
  cases w <;> rfl

theorem stosElement_withLock (w : Width) : stosElement w (s.withLock b) = (stosElement w s).withLock b := by
  cases w <;> rfl

theorem State.SameElse.inputs_eq {s t : State} (h : s.SameElse t) : t.inputs = s.inputs := by
  rw [State.SameElse] at h
  rw [h]

/-! ### Instructions -/

theorem next_withLock {s t : State} (h : t = s.withLock b) :
    (.next t : Host.Outcome State Fault Refusal) = onNext (·.withLock b) (.next s) :=
  congrArg Host.Outcome.next h

/-- An instruction that LOCK can precede does not look at it, where there are no other agents (45 R220). -/
theorem exec_withLock (i : Instr) (hi : i.actsAsPrefix = false) (h : s.externalAgents = false) :
    exec i (s.withLock b) = onNext (·.withLock b) (exec i s) := by
  cases i with
  -- data transfer
  | movRmReg d w => cases d <;> exact next_withLock b (s.write_withLock b w _ _)
  | movRmImm | movRegImm | movAccMem | movMemAcc | movRmSreg => exact next_withLock b (s.write_withLock b _ _ _)
  | movSregRm sr | popSreg sr => cases sr <;> rfl
  | pushRm rm =>
    rcases rm with r | m
    · cases r <;> rfl
    · rfl
  | pushReg reg => cases reg <;> rfl
  | popRm rm => exact next_withLock b (s.popped.write_withLock b .word _ _)
  | xchgRmReg w reg rm =>
    refine next_withLock b ?_
    have hfirst := s.write_withLock b w (s.place rm) (s.read w (.reg reg))
    exact (congrArg (State.write · w (.reg reg) _) hfirst).trans (State.write_withLock _ b w _ _)
  | inFixed w p => exact next_withLock b (s.inPort_withLock b _ w)
  | inVariable w => exact ite_onNext rfl (next_withLock b (s.inPort_withLock b _ w))
  | outVariable w => exact ite_onNext rfl rfl
  | pushSreg | pushf | popReg | xchgAccReg | outFixed | xlat | lea | lds | les | lahf | sahf | popf => rfl
  -- arithmetic and logic
  | addRmReg | adcRmReg | subRmReg | sbbRmReg | cmpRmReg | andRmReg | testRmReg | orRmReg | xorRmReg =>
    exact next_withLock b (s.binaryRmReg_withLock b _ _ _ _ _)
  | addRmImm | adcRmImm | subRmImm | sbbRmImm | cmpRmImm | andRmImm | testRmImm | orRmImm | xorRmImm | addAccImm | adcAccImm
  | subAccImm | sbbAccImm | cmpAccImm | andAccImm | testAccImm | orAccImm | xorAccImm =>
    exact next_withLock b (s.binary_withLock b _ _ _ _)
  | incRm | incReg | decRm | decReg => exact next_withLock b (s.incDec_withLock b _ _ _)
  | neg w rm => exact next_withLock b (State.write_withLock (s.setFlags _) b w _ _)
  | not w rm => exact next_withLock b (s.write_withLock b w _ _)
  | mul w | imul w => exact next_withLock b (State.setAccDouble_withLock (s.drawn.setFlags _) b w _)
  | div w | idiv w =>
    exact ite_onNext (next_withLock b (s.divideFails_withLock b w)) (next_withLock b (s.divideGives_withLock b w _ _))
  | aam base => exact ite_onNext (next_withLock b (s.divideFails_withLock b .byte)) rfl
  | aaa | daa | aas | das | aad | cbw | cwd => rfl
  | shl | shr | sar | rol | ror | rcl | rcr => exact next_withLock b (s.shift_withLock b _ _ _ _)
  -- strings
  | movs w =>
    exact s.string_withLock b (fun u => movsElement_withLock u b w) (fun u => (movsElement_sameElse w u).inputs_eq)
      (fun _ => rfl) h
  | cmps w =>
    exact s.string_withLock b (fun _ => rfl) (fun u => (cmpsElement_sameElse w u).inputs_eq) (fun _ => rfl) h
  | scas w =>
    exact s.string_withLock b (fun _ => rfl) (fun u => (scasElement_sameElse w u).inputs_eq) (fun _ => rfl) h
  | lods w =>
    exact s.string_withLock b (fun u => lodsElement_withLock u b w) (fun u => (lodsElement_sameElse w u).inputs_eq)
      (fun _ => rfl) h
  | stos w =>
    exact s.string_withLock b (fun u => stosElement_withLock u b w) (fun u => (stosElement_sameElse w u).inputs_eq)
      (fun _ => rfl) h
  -- transfers of control
  | callRel | callRm | callFar | callFarMem | jmpRel | jmpShort | jmpRm | jmpFar | jmpFarMem | ret | retImm | retFar
  | retFarImm | int | int3 | iret => rfl
  | into => exact ite_onNext rfl rfl
  | je | jl | jle | jb | jbe | jp | jo | js | jne | jnl | jnle | jnb | jnbe | jnp | jno | jns | jcxz =>
    exact next_withLock b (s.jumpIf_withLock b _ _)
  | loop | loopz | loopnz => exact next_withLock b (s.decCx.jumpIf_withLock b _ _)
  -- processor control
  | clc | cmc | stc | cld | std | cli | sti | hlt | esc => rfl
  | wait => exact ite_onNext rfl rfl
  | rep | lock | seg => cases hi

end Sys2Proof.Machine
end

section
/-! PROOFS. Who writes memory: instructions at `storesOf`, other agents at boundaries unless LOCK keeps them off
(20_memory.md R51, R53, R56, R57; 45_processor_control.md R220). -/

namespace Sys2Proof.Machine

/-! ### The writes of other agents -/

/-- Of a list of byte stores the last one to an address stands (20 R51). -/
theorem State.foldl_storeByte_read {s : State} (hs : s.mem.wf = true) (before after : List Host.Cell) (a : Nat) (b : Byte)
    (hlast : ∀ c ∈ after, c.1 % Config.memBytes ≠ a % Config.memBytes) :
    ((before ++ (a, b) :: after).foldl (fun t c => t.storeByte (c.1 % Config.memBytes) c.2) s).mem.read
      (a % Config.memBytes) = b := by
  rw [List.foldl_append, List.foldl_cons]
  obtain ⟨m, l, hbefore, -, hwf, -⟩ := State.foldl_storeByte before s
  rw [hbefore]
  obtain ⟨m', l', hafter, hoff, -⟩ :=
    State.foldl_storeByte after (({ s with mem := m, staleCode := l } : State).storeByte (a % Config.memBytes) b)
  rw [hafter]
  refine (hoff _ ?_).trans (Memory.read_write_same m (hwf hs) _ b)
  simpa using hlast

theorem State.agentsWrite_read {s : State} (hs : s.mem.wf = true) {before after : List Host.Cell} {a : Nat} {b : Byte}
    (hw : s.input.writes = before ++ (a, b) :: after)
    (hlast : ∀ c ∈ after, c.1 % Config.memBytes ≠ a % Config.memBytes) :
    s.agentsWrite.mem.read (a % Config.memBytes) = b := by
  rw [State.agentsWrite, hw]
  exact State.foldl_storeByte_read hs before after a b hlast

/-- Without LOCK the boundary lets the writes of the other agents land (20 R51, R53). -/
theorem State.pastBoundary_unlocked (s : State) (h : s.pfx.lock = false) : s.pastBoundary =
    { s with
      mem := s.agentsWrite.mem, staleCode := s.agentsWrite.staleCode, inputs := s.inputs.tail,
      nmiPending := s.nmiNow } := by
  simp [State.pastBoundary, h]

/-! ### The writes LOCK holds back -/

/-- What the host presents in the step after this one. -/
def State.nextInput (s : State) : HostInput := ({ s with inputs := s.inputs.tail } : State).input

/-- Held writes wait in the next record, before its own; nothing else of it or of the later records changes (20 R53,
45 R220). -/
theorem State.heldInputs_spec (s : State) :
    s.heldInputs.tail = s.inputs.tail.tail ∧
      ({ s with inputs := s.heldInputs } : State).input =
        { s.nextInput with writes := s.input.writes ++ s.nextInput.writes } := by
  cases hw : s.input.writes with
  | nil =>
    have hheld : s.heldInputs = s.inputs.tail := by rw [State.heldInputs, hw]
    rw [hheld]
    exact ⟨rfl, rfl⟩
  | cons c rest =>
    cases hin : s.inputs.tail with
    | nil =>
      have hheld : s.heldInputs = [{ s.restInput with writes := c :: rest }] := by rw [State.heldInputs, hw, hin]
      rw [hheld, State.nextInput, hin]
      refine ⟨rfl, ?_⟩
      simp [State.input, State.restInput, HostInput.quiet]
    | cons r later =>
      have hheld : s.heldInputs = { r with writes := c :: rest ++ r.writes } :: later := by
        rw [State.heldInputs, hw, hin]
      rw [hheld, State.nextInput, hin]
      exact ⟨rfl, rfl⟩

end Sys2Proof.Machine

open Sys2Proof Sys2Proof.Machine

/-- Settles O60: what an instruction stores is `exec_stored`, what a boundary stores is what other agents write there, and
LOCK changes nothing else. -/
theorem memoryWriters : Obligations.MemoryWriters := by
  intro s
  refine ⟨fun i t hrep h => (exec_stored (.inl hrep) h).memory, ⟨rfl, fun hfree => ?_, fun hlock => ?_⟩,
    fun halone i hi => ?_⟩
  · rw [s.pastBoundary_unlocked hfree]
    exact ⟨rfl, s.agentsWrite_sameOff, s.agentsWrite_remembers, fun hs _ _ _ _ hw hlast =>
      State.agentsWrite_read hs hw hlast⟩
  · obtain ⟨htail, hinput⟩ := s.heldInputs_spec
    rw [s.pastBoundary_locked hlock]
    exact ⟨rfl, rfl, htail, hinput⟩
  · exact exec_withLock (s.withLock false) true i hi halone
end

section
/-! PROOFS. The decoder's table: no two rows fit the same bytes, so that decoding is what the one row that fits reads
(30_encoding.md R76, R79, R85). -/

namespace Sys2Proof

/-! ### The rows exclude each other -/

/-- The fixed bits of two rows differ, in the first or in the second byte. -/
def Row.apart (r r' : Row) : Bool :=
  (r.val ^^^ r'.val) &&& (r.mask &&& r'.mask) != 0 ||
    match r.second, r'.second with
    | some (mask2, val2), some (mask2', val2') => (val2 ^^^ val2') &&& (mask2 &&& mask2') != 0
    | _, _ => false

theorem rows_pairwise_apart : rows.Pairwise fun r r' => r.apart r' = true := by decide +kernel

/-- Two patterns that fit one byte agree where both are fixed. -/
theorem xor_and_eq_zero_of_and_eq {b mask val mask' val' : Byte} (h : b &&& mask = val) (h' : b &&& mask' = val') :
    (val ^^^ val') &&& (mask &&& mask') = 0 := by
  subst h h'
  apply BitVec.eq_of_getLsbD_eq
  intro k hk
  cases hmask : mask.getLsbD k <;> cases hmask' : mask'.getLsbD k <;> simp [hmask, hmask']

theorem Row.fits_iff {r : Row} {b m : Byte} :
    r.fits b m = true ↔ b &&& r.mask = r.val ∧ ∀ p, r.second = some p → m &&& p.1 = p.2 := by
  obtain ⟨mask, val, second, parse⟩ := r
  cases second <;> simp [Row.fits]

theorem Row.fits_eq_false_of_apart {r r' : Row} {b m : Byte} (ha : r.apart r' = true) (h' : r'.fits b m = true) :
    r.fits b m = false := by
  refine Bool.eq_false_iff.mpr fun h => ?_
  obtain ⟨hfirst, hsecond⟩ := Row.fits_iff.mp h
  obtain ⟨hfirst', hsecond'⟩ := Row.fits_iff.mp h'
  rw [Row.apart, xor_and_eq_zero_of_and_eq hfirst hfirst'] at ha
  split at ha
  next p p' hp hp' =>
    rw [xor_and_eq_zero_of_and_eq (hsecond _ hp) (hsecond' _ hp')] at ha
    cases ha
  next => cases ha

/-- The row that fits is the row found. -/
theorem find?_rows_of_fits {r : Row} {b m : Byte} (hr : r ∈ rows) (h : r.fits b m = true) :
    rows.find? (fun r => r.fits b m) = some r := by
  obtain ⟨before, after, hrows⟩ := List.append_of_mem hr
  have hapart := rows_pairwise_apart
  rw [hrows, List.pairwise_append] at hapart
  obtain ⟨-, -, hbefore⟩ := hapart
  refine List.find?_eq_some_iff_append.mpr ⟨h, before, after, hrows, fun r' hr' => ?_⟩
  rw [Row.fits_eq_false_of_apart (hbefore r' hr' r List.mem_cons_self) h]
  rfl

/-! ### Decoding by the row that fits -/

theorem decode_of_fits_one {r : Row} (hr : r ∈ rows) (hsecond : r.second = none) {b : Byte} (hb : b &&& r.mask = r.val)
    (bs : List Byte) : decode (b :: bs) = r.parse b 0 bs := by
  have hfits : r.fits b (bs.headD 0) = true := Row.fits_iff.mpr ⟨hb, by simp [hsecond]⟩
  simp only [decode, find?_rows_of_fits hr hfits, hsecond]

theorem decode_of_fits_two {r : Row} (hr : r ∈ rows) {mask2 val2 : Byte} (hsecond : r.second = some (mask2, val2))
    {b m : Byte} (hb : b &&& r.mask = r.val) (hm : m &&& mask2 = val2) (bs : List Byte) :
    decode (b :: m :: bs) = r.parse b m bs := by
  have hfits : r.fits b m = true := Row.fits_iff.mpr ⟨hb, by simpa [hsecond] using hm⟩
  simp only [decode, List.headD_cons, find?_rows_of_fits hr hfits, hsecond]

/-- The row fits the bytes and reads the instruction from them. -/
def Row.Accepts (r : Row) (bytes : List Byte) (i : Instr) (rest : List Byte) : Prop :=
  (r.second = none ∧ ∃ b bs, bytes = b :: bs ∧ b &&& r.mask = r.val ∧ r.parse b 0 bs = .ok (i, rest)) ∨
    ∃ mask2 val2, r.second = some (mask2, val2) ∧ ∃ b m bs, bytes = b :: m :: bs ∧ b &&& r.mask = r.val ∧
      m &&& mask2 = val2 ∧ r.parse b m bs = .ok (i, rest)

/-- Decoding succeeds where a row of the table accepts the bytes. -/
theorem decode_ok_iff {bytes rest : List Byte} {i : Instr} :
    decode bytes = .ok (i, rest) ↔ ∃ r ∈ rows, r.Accepts bytes i rest := by
  constructor
  · intro h
    rcases bytes with - | ⟨b, bs⟩
    · cases h
    rw [decode] at h
    split at h
    · cases h
    next r hfind =>
      obtain ⟨hb, hm⟩ := Row.fits_iff.mp (List.find?_some (p := (Row.fits · b (bs.headD 0))) hfind)
      refine ⟨r, List.mem_of_find?_eq_some hfind, ?_⟩
      split at h
      next hsecond => exact .inl ⟨hsecond, b, bs, rfl, hb, h⟩
      next p hsecond =>
        rcases bs with - | ⟨m, bs⟩
        · cases h
        · exact .inr ⟨_, _, hsecond, b, m, bs, rfl, hb, hm p hsecond, h⟩
  · rintro ⟨r, hr, ⟨hsecond, b, bs, rfl, hb, h⟩ | ⟨mask2, val2, hsecond, b, m, bs, rfl, hb, hm, h⟩⟩
    · exact (decode_of_fits_one hr hsecond hb bs).trans h
    · exact (decode_of_fits_two hr hsecond hb hm bs).trans h

end Sys2Proof
end

section
/-! PROOFS. The parts of an encoding and their inverses: bit fields of the first byte and of the reg position, the operand
of the second byte, the data after it (30_encoding.md R61 to R69). -/

namespace Sys2Proof

/-! ### Codes -/

@[simp] theorem RegField.ofCode_code (r : RegField) : RegField.ofCode r.code = r := by cases r <;> rfl
@[simp] theorem RegField.code_ofCode (c : BitVec 3) : (RegField.ofCode c).code = c := by revert c; decide
@[simp] theorem SReg.code_ofCode (c : BitVec 2) : (SReg.ofCode c).code = c := by revert c; decide
@[simp] theorem EaBase.ofCode_code (e : EaBase) : EaBase.ofCode e.code = e := by cases e <;> rfl
@[simp] theorem EaBase.code_ofCode (c : BitVec 3) : (EaBase.ofCode c).code = c := by revert c; decide
@[simp] theorem Width.bit_ofBit (z : Bool) : (Width.ofBit z).bit = BitVec.ofBool z := by cases z <;> rfl
@[simp] theorem Dir.bit_ofBit (z : Bool) : (Dir.ofBit z).bit = BitVec.ofBool z := by cases z <;> rfl
@[simp] theorem CountSel.bit_ofBit (z : Bool) : (CountSel.ofBit z).bit = BitVec.ofBool z := by cases z <;> rfl

/-! ### Fields around fixed bits -/

/-- Bits with the fixed part `val` under `mask` are the values of a field: `dec` reads them, `enc` writes them. -/
structure FieldOf {n : Nat} {α : Type} (mask val : BitVec n) (dec : BitVec n → α) (enc : α → BitVec n) : Prop where
  enc_dec : ∀ b, b &&& mask = val → enc (dec b) = b
  enc_and : ∀ x, enc x &&& mask = val
  dec_enc : ∀ x, dec (enc x) = x

/-- No field: every bit is fixed. -/
theorem fieldOf_fixed {n : Nat} {val : BitVec n} : FieldOf (.allOnes n) val (fun _ => ()) (fun _ => val) where
  enc_dec b hb := by rw [← hb, BitVec.and_allOnes]
  enc_and _ := BitVec.and_allOnes
  dec_enc _ := rfl

/-- w in bit 0. -/
theorem fieldOf_w {val : Byte} (h : val &&& 0xFE = val) : FieldOf 0xFE val (fun b => Width.ofBit (b.getLsbD 0))
    (fun w => val.extractLsb' 1 7 ++ w.bit) where
  enc_dec := by rintro b rfl; simp only [Width.bit_ofBit]; revert b; decide
  enc_and w := by cases w <;> (revert val; decide)
  dec_enc w := by cases w <;> (revert val; decide)

/-- z in bit 0. -/
theorem fieldOf_z {val : Byte} (h : val &&& 0xFE = val) : FieldOf 0xFE val (fun b => b.getLsbD 0)
    (fun z => val.extractLsb' 1 7 ++ BitVec.ofBool z) where
  enc_dec := by rintro b rfl; revert b; decide
  enc_and := by revert val; decide
  dec_enc := by revert val; decide

/-- d in bit 1, w in bit 0. -/
theorem fieldOf_dw {val : Byte} (h : val &&& 0xFC = val) : FieldOf 0xFC val
    (fun b => (Dir.ofBit (b.getLsbD 1), Width.ofBit (b.getLsbD 0)))
    (fun x => val.extractLsb' 2 6 ++ x.1.bit ++ x.2.bit) where
  enc_dec := by rintro b rfl; simp only [Dir.bit_ofBit, Width.bit_ofBit]; revert b; decide
  enc_and := by rintro ⟨d, w⟩; cases d <;> cases w <;> (revert val; decide)
  dec_enc := by rintro ⟨d, w⟩; cases d <;> cases w <;> (revert val; decide)

/-- v in bit 1, w in bit 0. -/
theorem fieldOf_vw {val : Byte} (h : val &&& 0xFC = val) : FieldOf 0xFC val
    (fun b => (CountSel.ofBit (b.getLsbD 1), Width.ofBit (b.getLsbD 0)))
    (fun x => val.extractLsb' 2 6 ++ x.1.bit ++ x.2.bit) where
  enc_dec := by rintro b rfl; simp only [CountSel.bit_ofBit, Width.bit_ofBit]; revert b; decide
  enc_and := by rintro ⟨v, w⟩; cases v <;> cases w <;> (revert val; decide)
  dec_enc := by rintro ⟨v, w⟩; cases v <;> cases w <;> (revert val; decide)

/-- s in bit 1, w in bit 0. -/
theorem fieldOf_sw {val : Byte} (h : val &&& 0xFC = val) : FieldOf 0xFC val
    (fun b => (b.getLsbD 1, b.getLsbD 0))
    (fun x => val.extractLsb' 2 6 ++ (BitVec.ofBool x.1 ++ BitVec.ofBool x.2)) where
  enc_dec := by rintro b rfl; revert b; decide
  enc_and := by rintro ⟨s, w⟩; revert val s w; decide
  dec_enc := by rintro ⟨s, w⟩; revert val s w; decide

/-- Three bits of any meaning in bits 2-0. -/
theorem fieldOf_low {val : Byte} (h : val &&& 0xF8 = val) : FieldOf 0xF8 val lowBits
    (fun c => val.extractLsb' 3 5 ++ c) where
  enc_dec := by rintro b rfl; revert b; decide
  enc_and := by revert val; decide
  dec_enc := by revert val; decide

/-- A register in bits 2-0. -/
theorem fieldOf_reg {val : Byte} (h : val &&& 0xF8 = val) : FieldOf 0xF8 val (fun b => RegField.ofCode (lowBits b))
    (fun r => val.extractLsb' 3 5 ++ r.code) where
  enc_dec b hb := by rw [RegField.code_ofCode, (fieldOf_low h).enc_dec b hb]
  enc_and r := (fieldOf_low h).enc_and r.code
  dec_enc r := by rw [(fieldOf_low h).dec_enc, RegField.ofCode_code]

/-- w in bit 3, a register in bits 2-0. -/
theorem fieldOf_wReg {val : Byte} (h : val &&& 0xF0 = val) : FieldOf 0xF0 val
    (fun b => (Width.ofBit (b.getLsbD 3), RegField.ofCode (lowBits b)))
    (fun x => val.extractLsb' 4 4 ++ x.1.bit ++ x.2.code) where
  enc_dec := by rintro b rfl; simp only [Width.bit_ofBit, RegField.code_ofCode]; revert b; decide
  enc_and := by rintro ⟨w, r⟩; cases w <;> cases r <;> (revert val; decide)
  dec_enc := by
    rintro ⟨w, r⟩
    generalize val.extractLsb' 4 4 = hi
    cases w <;> cases r <;> (revert hi; decide)

/-- A segment register in bits 4-3. -/
theorem fieldOf_sreg {val : Byte} (h : val &&& 0xE7 = val) : FieldOf 0xE7 val segField
    (fun sr => val.extractLsb' 5 3 ++ sr.code ++ val.extractLsb' 0 3) where
  enc_dec := by rintro b rfl; simp only [segField, SReg.code_ofCode]; revert b; decide
  enc_and sr := by cases sr <;> (revert val; decide)
  dec_enc sr := by cases sr <;> (revert val; decide)

/-- The reg position holds any three bits. -/
theorem fieldOf_three : FieldOf 0b000#3 0b000#3 (fun c => c) (fun c => c) :=
  ⟨fun _ _ => rfl, fun _ => BitVec.and_zero, fun _ => rfl⟩

/-- The reg position holds a register. -/
theorem fieldOf_regCode : FieldOf 0b000#3 0b000#3 RegField.ofCode RegField.code :=
  ⟨fun c _ => RegField.code_ofCode c, fun _ => BitVec.and_zero, RegField.ofCode_code⟩

/-- The reg position holds a segment register in its low bits, its high bit is 0. -/
theorem fieldOf_sregCode : FieldOf 0b100#3 0b000#3 (fun c => SReg.ofCode (c.extractLsb' 0 2))
    (fun sr => 0b0#1 ++ sr.code) where
  enc_dec := by simp only [SReg.code_ofCode]; decide
  enc_and sr := by cases sr <;> rfl
  dec_enc sr := by cases sr <;> rfl

/-- A segment field of the second byte is in its reg position. -/
theorem segField_eq (m : Byte) : segField m = .ofCode ((regBits m).extractLsb' 0 2) := by revert m; decide

/-! ### The second byte -/

theorem secondByte_eq_iff {m : Byte} {md : BitVec 2} {reg rm : BitVec 3} :
    m = md ++ reg ++ rm ↔ modField m = md ∧ regBits m = reg ∧ lowBits m = rm := by
  have hsplit : ∀ m : Byte, m = modField m ++ regBits m ++ lowBits m := by decide
  have hhigh {i n : Nat} : (md ++ reg ++ rm).extractLsb' (i + 3) n = (md ++ reg).extractLsb' i n :=
    BitVec.extractLsb'_append_eq_of_le (Nat.le_add_left 3 i)
  constructor
  · rintro rfl
    exact ⟨hhigh.trans BitVec.extractLsb'_append_eq_left, hhigh.trans BitVec.extractLsb'_append_eq_right,
      BitVec.extractLsb'_append_eq_right⟩
  · rintro ⟨rfl, rfl, rfl⟩
    exact hsplit m

/-- A byte with bits in the reg position alone. -/
theorem eq_reg_of_and {v : Byte} (h : v &&& 0x38 = v) : v = 0b00#2 ++ regBits v ++ 0b000#3 := by revert v; decide

theorem modField_and (m m' : Byte) : modField (m &&& m') = modField m &&& modField m' := BitVec.extractLsb'_and
theorem regBits_and (m m' : Byte) : regBits (m &&& m') = regBits m &&& regBits m' := BitVec.extractLsb'_and
theorem lowBits_and (m m' : Byte) : lowBits (m &&& m') = lowBits m &&& lowBits m' := BitVec.extractLsb'_and

/-- A pattern that fixes bits of the reg position alone. -/
theorem and_reg_eq_iff {mask val : BitVec 3} (m : Byte) :
    m &&& (0b00#2 ++ mask ++ 0b000#3) = 0b00#2 ++ val ++ 0b000#3 ↔ regBits m &&& mask = val := by
  generalize hpattern : 0b00#2 ++ mask ++ 0b000#3 = pattern
  obtain ⟨hmod, hreg, hlow⟩ := secondByte_eq_iff.mp hpattern.symm
  simp [secondByte_eq_iff, modField_and, regBits_and, lowBits_and, hmod, hreg, hlow]

/-! ### The data after the operand -/

/-- `p` reads each `v` with `ok v` from the bytes `bytes v`, whatever follows, and reads nothing else. -/
structure Reads {β : Type} (p : List Byte → (β → List Byte → Parsed Instr) → Parsed Instr) (ok : β → Prop)
    (bytes : β → List Byte) : Prop where
  of_bytes : ∀ {v}, ok v → ∀ rest k, p (bytes v ++ rest) k = k v rest
  bytes_of_ok : ∀ {bs k a}, p bs k = .ok a → ∃ v rest, ok v ∧ bs = bytes v ++ rest

theorem reads_nothing : Reads (fun bs k => k () bs) (fun _ => True) fun _ => [] where
  of_bytes _ _ _ := rfl
  bytes_of_ok {bs} _ _ _ := ⟨(), bs, trivial, rfl⟩

theorem reads_byte : Reads withByte (fun _ => True) fun v => [v] where
  of_bytes _ _ _ := rfl
  bytes_of_ok {bs} k a h := by
    rcases bs with - | ⟨v, rest⟩
    · cases h
    · exact ⟨v, rest, trivial, rfl⟩

theorem wordBytes_eq (v : Word) : wordBytes v = [Machine.loByte v, Machine.hiByte v] := rfl

theorem reads_word : Reads withWord (fun _ => True) wordBytes where
  of_bytes {v} _ rest k := congrArg (k · rest) (Machine.hiByte_append_loByte v)
  bytes_of_ok {bs} k a h := by
    rcases bs with - | ⟨lo, - | ⟨hi, rest⟩⟩
    · cases h
    · cases h
    · exact ⟨hi ++ lo, rest, trivial, by simp [wordBytes_eq]⟩

theorem reads_far : Reads (fun bs k => withWord bs fun off bs => withWord bs fun sg => k (off, sg)) (fun _ => True)
    fun v => wordBytes v.1 ++ wordBytes v.2 where
  of_bytes _ rest k := by rw [List.append_assoc, reads_word.of_bytes trivial, reads_word.of_bytes trivial]
  bytes_of_ok h := by
    obtain ⟨off, _, -, rfl⟩ := reads_word.bytes_of_ok h
    rw [reads_word.of_bytes trivial] at h
    obtain ⟨sg, rest, -, rfl⟩ := reads_word.bytes_of_ok h
    exact ⟨(off, sg), rest, trivial, (List.append_assoc ..).symm⟩

/-- Reading a `v` reads `f v` where the bytes of `f v` are those of `v`. -/
theorem Reads.map {β γ : Type} {p : List Byte → (β → List Byte → Parsed Instr) → Parsed Instr}
    {bytes : β → List Byte} (h : Reads p (fun _ => True) bytes) (f : β → γ) {ok : γ → Prop} {bytes' : γ → List Byte}
    (hok : ∀ g, ok g ↔ ∃ v, g = f v) (hbytes : ∀ v, bytes' (f v) = bytes v) :
    Reads (fun bs k => p bs fun v => k (f v)) ok bytes' where
  of_bytes {g} hg rest k := by
    obtain ⟨v, rfl⟩ := (hok g).mp hg
    rw [hbytes, h.of_bytes trivial]
  bytes_of_ok hp := by
    obtain ⟨v, rest, -, rfl⟩ := h.bytes_of_ok hp
    exact ⟨f v, rest, (hok _).mpr ⟨v, rfl⟩, by rw [hbytes]⟩

theorem reads_imm (w : Width) : Reads (withImm w) (fun imm => imm.width = w) Imm.bytes := by
  cases w with
  | byte => exact reads_byte.map Imm.byte (fun imm => by cases imm <;> simp) fun _ => rfl
  | word => exact reads_word.map Imm.word (fun imm => by cases imm <;> simp) fun _ => rfl

theorem reads_swImm (s w : Bool) :
    Reads (withSwImm s w) (fun imm => imm.swBits = BitVec.ofBool s ++ BitVec.ofBool w) SwImm.bytes := by
  cases s <;> cases w
  · exact reads_byte.map SwImm.s0w0 (fun imm => by cases imm <;> simp [SwImm.swBits]) fun _ => rfl
  · exact reads_word.map SwImm.s0w1 (fun imm => by cases imm <;> simp [SwImm.swBits]) fun _ => rfl
  · exact reads_byte.map SwImm.s1w0 (fun imm => by cases imm <;> simp [SwImm.swBits]) fun _ => rfl
  · exact reads_byte.map SwImm.s1w1 (fun imm => by cases imm <;> simp [SwImm.swBits]) fun _ => rfl

/-! ### The operand of the second byte -/

section Modes

variable {m : Byte} (bs : List Byte) (k : RM → List Byte → Parsed Instr)

/-- mod = 00 without displacement (30 R63). -/
theorem withRm_noDisp {base : EaBase} (hmod : modField m = 0b00#2) (hlow : lowBits m = base.code) (hbase : base ≠ .bp) :
    withRm m bs k = k (.mem (.noDisp base)) bs := by
  simp only [withRm, hmod, hlow, EaBase.ofCode_code]
  cases base with
  | bp => exact absurd rfl hbase
  | _ => rfl

/-- mod = 00 with r/m = 110 is the direct address (30 R63). -/
theorem withRm_direct (hmod : modField m = 0b00#2) (hlow : lowBits m = 0b110#3) :
    withRm m bs k = withWord bs fun a => k (.mem (.direct a)) := by
  simp [withRm, hmod, hlow, EaBase.ofCode]

theorem withRm_disp8 (hmod : modField m = 0b01#2) :
    withRm m bs k = withByte bs fun d => k (.mem (.disp8 (.ofCode (lowBits m)) d)) := by
  simp [withRm, hmod]

theorem withRm_disp16 (hmod : modField m = 0b10#2) :
    withRm m bs k = withWord bs fun d => k (.mem (.disp16 (.ofCode (lowBits m)) d)) := by
  simp [withRm, hmod]

theorem withRm_reg (hmod : modField m = 0b11#2) : withRm m bs k = k (.reg (.ofCode (lowBits m))) bs := by
  simp [withRm, hmod]

end Modes

/-- Where the operand must be memory, mod = 11 is refused (30 R79 item 7). -/
theorem withMem_reg {m : Byte} (hmod : modField m = 0b11#2) (b : Byte) (bs : List Byte)
    (k : MemOp → List Byte → Parsed Instr) : withMem b m bs k = .error (.registerOperand b m) :=
  withRm_reg bs _ hmod

/-- `p` reads each operand `v` with `ok v` from the second byte and the bytes after it as `bytes` writes them, whatever
stands in the reg position, and reads nothing else. -/
structure ReadsOperand {β : Type} (p : Byte → Byte → List Byte → (β → List Byte → Parsed Instr) → Parsed Instr)
    (ok : β → Prop) (bytes : BitVec 3 → β → List Byte) : Prop where
  second : ∀ reg v, ∃ m bs, bytes reg v = m :: bs ∧ regBits m = reg
  of_bytes : ∀ {b m bs reg v rest}, ok v → m :: bs = bytes reg v ++ rest → ∀ k, p b m bs k = k v rest
  bytes_of_ok : ∀ {b m bs k a}, p b m bs k = .ok a → ∃ v rest, ok v ∧ m :: bs = bytes (regBits m) v ++ rest

theorem MemOp.bytes_eq_cons (reg : BitVec 3) (m : MemOp) : ∃ b bs, m.bytes reg = b :: bs ∧ regBits b = reg := by
  cases m <;> exact ⟨_, _, rfl, (secondByte_eq_iff.mp rfl).2.1⟩

theorem RM.bytes_eq_cons (reg : BitVec 3) (rm : RM) : ∃ b bs, rm.bytes reg = b :: bs ∧ regBits b = reg := by
  cases rm with
  | reg r => exact ⟨_, _, rfl, (secondByte_eq_iff.mp rfl).2.1⟩
  | mem m => exact m.bytes_eq_cons reg

theorem withRm_of_bytes {rm : RM} (hrm : rm.wellFormed = true) {m : Byte} {bs rest : List Byte} {reg : BitVec 3}
    (h : m :: bs = rm.bytes reg ++ rest) (k : RM → List Byte → Parsed Instr) : withRm m bs k = k rm rest := by
  rcases rm with r | base | a | ⟨base, d⟩ | ⟨base, d⟩ <;> obtain ⟨hm, rfl⟩ := List.cons.inj h <;>
    obtain ⟨hmod, -, hlow⟩ := secondByte_eq_iff.mp hm
  · rw [withRm_reg _ _ hmod, hlow, RegField.ofCode_code]
  · exact withRm_noDisp _ _ hmod hlow (bne_iff_ne.mp hrm)
  · exact (withRm_direct _ _ hmod hlow).trans (reads_word.of_bytes trivial ..)
  · rw [withRm_disp8 _ _ hmod, hlow, EaBase.ofCode_code]
    rfl
  · rw [withRm_disp16 _ _ hmod, hlow, EaBase.ofCode_code]
    exact reads_word.of_bytes trivial ..

theorem bytes_of_withRm_ok {m : Byte} {bs : List Byte} {k : RM → List Byte → Parsed Instr} {a : Instr × List Byte}
    (h : withRm m bs k = .ok a) :
    ∃ (rm : RM) (rest : List Byte), rm.wellFormed = true ∧ m :: bs = rm.bytes (regBits m) ++ rest := by
  have hmods : ∀ v : BitVec 2, v = 0b00#2 ∨ v = 0b01#2 ∨ v = 0b10#2 ∨ v = 0b11#2 := by decide
  have hsecond {md : BitVec 2} {c : BitVec 3} (hmod : modField m = md) (hlow : lowBits m = c) (bs : List Byte) :
      m :: bs = (md ++ regBits m ++ c) :: bs := congrArg (· :: bs) (secondByte_eq_iff.mpr ⟨hmod, rfl, hlow⟩)
  have hcode : lowBits m = (EaBase.ofCode (lowBits m)).code := (EaBase.code_ofCode _).symm
  rcases hmods (modField m) with hmod | hmod | hmod | hmod
  · by_cases hlow : lowBits m = 0b110#3
    · rw [withRm_direct _ _ hmod hlow] at h
      obtain ⟨v, rest, -, rfl⟩ := reads_word.bytes_of_ok h
      exact ⟨.mem (.direct v), rest, rfl, hsecond hmod hlow _⟩
    · have hbase : EaBase.ofCode (lowBits m) ≠ .bp := fun e => hlow (by rw [hcode, e]; rfl)
      exact ⟨.mem (.noDisp _), bs, bne_iff_ne.mpr hbase, hsecond hmod hcode bs⟩
  · rw [withRm_disp8 _ _ hmod] at h
    obtain ⟨d, rest, -, rfl⟩ := reads_byte.bytes_of_ok h
    exact ⟨.mem (.disp8 _ d), rest, rfl, hsecond hmod hcode _⟩
  · rw [withRm_disp16 _ _ hmod] at h
    obtain ⟨d, rest, -, rfl⟩ := reads_word.bytes_of_ok h
    exact ⟨.mem (.disp16 _ d), rest, rfl, hsecond hmod hcode _⟩
  · exact ⟨.reg (.ofCode (lowBits m)), bs, rfl, hsecond hmod (RegField.code_ofCode _).symm bs⟩

theorem readsOperand_rm :
    ReadsOperand (fun _ => withRm) (fun rm => RM.wellFormed rm = true) fun reg rm => RM.bytes reg rm where
  second reg rm := rm.bytes_eq_cons reg
  of_bytes hrm h k := withRm_of_bytes hrm h k
  bytes_of_ok h := bytes_of_withRm_ok h

theorem readsOperand_mem : ReadsOperand withMem (fun m => MemOp.wellFormed m = true) fun reg m => MemOp.bytes reg m where
  second reg m := m.bytes_eq_cons reg
  of_bytes hm h _ := withRm_of_bytes (rm := .mem _) hm h _
  bytes_of_ok h := by
    obtain ⟨rm, rest, hrm, hbytes⟩ := bytes_of_withRm_ok h
    rw [withMem, withRm_of_bytes hrm hbytes] at h
    cases rm with
    | reg r => cases h
    | mem m => exact ⟨m, rest, hrm, hbytes⟩

end Sys2Proof
end

section
/-! PROOFS. What each shape of row spells: the instructions of its constructors, in the bytes of the encoder
(30_encoding.md R65 to R74). -/

namespace Sys2Proof

/-- The row accepts exactly the encodings of the well-formed instructions of a kind. -/
def Row.Spells (r : Row) (P : Instr → Prop) : Prop :=
  ∀ bytes i rest, r.Accepts bytes i rest ↔ P i ∧ i.wellFormed = true ∧ encode i ++ rest = bytes

/-! ### Rows in general -/

/-- A row of one byte with a field, and data after it. -/
theorem spells_one {α β : Type} {mask val : Byte} {dec : Byte → α} {enc : α → Byte}
    {tail : α → List Byte → (β → List Byte → Parsed Instr) → Parsed Instr} {ok : α → β → Prop}
    {bytesOf : β → List Byte} {P : Instr → Prop} (g : α → β → Instr) (hfield : FieldOf mask val dec enc)
    (htail : ∀ x, Reads (tail x) (ok x) bytesOf) (hP : ∀ i, P i ↔ ∃ x v, ok x v ∧ i = g x v)
    (hwf : ∀ x v, (g x v).wellFormed = true) (henc : ∀ x v, ok x v → encode (g x v) = enc x :: bytesOf v) {r : Row}
    (hr : r = ⟨mask, val, none, fun b _ bs => tail (dec b) bs fun v => done (g (dec b) v)⟩) : r.Spells P := by
  subst hr
  intro bytes i rest
  rw [hP]
  constructor
  · rintro (⟨-, b, bs, rfl, hb, h⟩ | ⟨_, _, hsecond, -⟩)
    · obtain ⟨v, rest', hv, rfl⟩ := (htail (dec b)).bytes_of_ok h
      obtain ⟨rfl, rfl⟩ : g (dec b) v = i ∧ rest' = rest := by simpa [(htail _).of_bytes hv, done] using h
      exact ⟨⟨dec b, v, hv, rfl⟩, hwf _ _, by rw [henc _ _ hv, hfield.enc_dec b hb]; rfl⟩
    · cases hsecond
  · rintro ⟨⟨x, v, hv, rfl⟩, -, rfl⟩
    refine .inl ⟨rfl, enc x, bytesOf v ++ rest, by rw [henc x v hv]; rfl, hfield.enc_and x, ?_⟩
    simp only [hfield.dec_enc, (htail x).of_bytes hv, done]

/-- A row of two bytes with a field in each and an operand, and data after them. -/
theorem spells_two {α β γ δ : Type} {mask val mask2 val2 : Byte} {mask3 val3 : BitVec 3}
    {dec : Byte → α} {enc : α → Byte} {dec2 : BitVec 3 → β} {enc2 : β → BitVec 3}
    {p : Byte → Byte → List Byte → (γ → List Byte → Parsed Instr) → Parsed Instr} {okOp : γ → Prop}
    {bytesOp : BitVec 3 → γ → List Byte} {tail : α → List Byte → (δ → List Byte → Parsed Instr) → Parsed Instr}
    {ok : α → δ → Prop} {bytesOf : δ → List Byte} {P : Instr → Prop} (g : α → β → γ → δ → Instr)
    (hfield : FieldOf mask val dec enc) (hfield2 : FieldOf mask3 val3 dec2 enc2)
    (hmask2 : mask2 = 0b00#2 ++ mask3 ++ 0b000#3) (hval2 : val2 = 0b00#2 ++ val3 ++ 0b000#3)
    (hop : ReadsOperand p okOp bytesOp) (htail : ∀ x, Reads (tail x) (ok x) bytesOf)
    (hP : ∀ i, P i ↔ ∃ x y o v, ok x v ∧ i = g x y o v) (hwf : ∀ x y o v, (g x y o v).wellFormed = true ↔ okOp o)
    (henc : ∀ x y o v, ok x v → encode (g x y o v) = enc x :: (bytesOp (enc2 y) o ++ bytesOf v)) {r : Row}
    (hr : r = ⟨mask, val, some (mask2, val2), fun b m bs => p b m bs fun o bs => tail (dec b) bs fun v =>
      done (g (dec b) (dec2 (regBits m)) o v)⟩) : r.Spells P := by
  subst hr hmask2 hval2
  intro bytes i rest
  rw [hP]
  constructor
  · rintro (⟨hsecond, -⟩ | ⟨_, _, ⟨rfl, rfl⟩, b, m, bs, rfl, hb, hm, h⟩)
    · cases hsecond
    · obtain ⟨o, bs', ho, hbytes⟩ := hop.bytes_of_ok h
      have h := (hop.of_bytes ho hbytes _).symm.trans h
      obtain ⟨v, rest', hv, rfl⟩ := (htail (dec b)).bytes_of_ok h
      obtain ⟨rfl, rfl⟩ : g (dec b) (dec2 (regBits m)) o v = i ∧ rest' = rest := by
        simpa [(htail _).of_bytes hv, done] using h
      refine ⟨⟨_, _, o, v, hv, rfl⟩, (hwf ..).mpr ho, ?_⟩
      rw [henc _ _ _ _ hv, hfield.enc_dec b hb, hfield2.enc_dec _ ((and_reg_eq_iff m).mp hm), hbytes, List.cons_append,
        List.append_assoc]
  · rintro ⟨⟨x, y, o, v, hv, rfl⟩, ho, rfl⟩
    obtain ⟨m, bs, hbytes, hreg⟩ := hop.second (enc2 y) o
    have hm := (and_reg_eq_iff m).mpr (hreg ▸ hfield2.enc_and y)
    have hread : m :: (bs ++ (bytesOf v ++ rest)) = bytesOp (enc2 y) o ++ (bytesOf v ++ rest) := by rw [hbytes]; rfl
    refine .inr ⟨_, _, rfl, enc x, m, bs ++ (bytesOf v ++ rest), ?_, hfield.enc_and x, hm, ?_⟩
    · rw [henc x y o v hv, hread, List.cons_append, List.append_assoc]
    · simp only [hop.of_bytes ((hwf ..).mp ho) hread, hfield.dec_enc, hreg, hfield2.dec_enc, (htail x).of_bytes hv, done]

/-! ### The shapes

The hypotheses of a shape say what the constructors of its rows encode to; they hold by computation at each row of the
table. -/

variable {val val2 : Byte}

/-- Every immediate of the s:w group has its s and its w. -/
theorem exists_swBits (imm : SwImm) : ∃ s w, imm.swBits = BitVec.ofBool s ++ BitVec.ofBool w := by
  cases imm
  · exact ⟨false, false, rfl⟩
  · exact ⟨false, true, rfl⟩
  · exact ⟨true, false, rfl⟩
  · exact ⟨true, true, rfl⟩

theorem rowPlain_spells {i : Instr} (hwf : i.wellFormed = true := by rfl) (henc : encode i = [val] := by rfl) :
    (rowPlain val i).Spells fun j => j = i :=
  spells_one (fun _ _ => i) fieldOf_fixed (fun _ => reads_nothing) (by simp) (by simp [hwf]) (by simp [henc]) rfl

theorem rowW_spells {f : Width → Instr} (hval : val &&& 0xFE = val := by rfl)
    (hwf : ∀ w, (f w).wellFormed = true := by intros; rfl)
    (henc : ∀ w, encode (f w) = [val.extractLsb' 1 7 ++ w.bit] := by intros; rfl) :
    (rowW val f).Spells fun i => ∃ w, i = f w :=
  spells_one (fun w _ => f w) (fieldOf_w hval) (fun _ => reads_nothing) (by simp) (by simp [hwf]) (by simp [henc]) rfl

theorem rowReg_spells {f : RegField → Instr} (hval : val &&& 0xF8 = val := by rfl)
    (hwf : ∀ reg, (f reg).wellFormed = true := by intros; rfl)
    (henc : ∀ reg, encode (f reg) = [val.extractLsb' 3 5 ++ reg.code] := by intros; rfl) :
    (rowReg val f).Spells fun i => ∃ reg, i = f reg :=
  spells_one (fun reg _ => f reg) (fieldOf_reg hval) (fun _ => reads_nothing)
    (by simp) (by simp [hwf]) (by simp [henc]) rfl

theorem rowSreg_spells {f : SReg → Instr} (hval : val &&& 0xE7 = val := by rfl)
    (hwf : ∀ sr, (f sr).wellFormed = true := by intros; rfl)
    (henc : ∀ sr, encode (f sr) = [val.extractLsb' 5 3 ++ sr.code ++ val.extractLsb' 0 3] := by intros; rfl) :
    (rowSreg val f).Spells fun i => ∃ sr, i = f sr :=
  spells_one (fun sr _ => f sr) (fieldOf_sreg hval) (fun _ => reads_nothing)
    (by simp) (by simp [hwf]) (by simp [henc]) rfl

theorem rowByte_spells {f : Byte → Instr}
    (hwf : ∀ v, (f v).wellFormed = true := by intros; rfl)
    (henc : ∀ v, encode (f v) = [val, v] := by intros; rfl) :
    (rowByte val f).Spells fun i => ∃ v, i = f v :=
  spells_one (fun _ v => f v) fieldOf_fixed (fun _ => reads_byte) (by simp) (by simp [hwf]) (by simp [henc]) rfl

theorem rowWord_spells {f : Word → Instr}
    (hwf : ∀ v, (f v).wellFormed = true := by intros; rfl)
    (henc : ∀ v, encode (f v) = val :: wordBytes v := by intros; rfl) :
    (rowWord val f).Spells fun i => ∃ v, i = f v :=
  spells_one (fun _ v => f v) fieldOf_fixed (fun _ => reads_word) (by simp) (by simp [hwf]) (by simp [henc]) rfl

theorem rowFar_spells {f : Word → Word → Instr}
    (hwf : ∀ off sg, (f off sg).wellFormed = true := by intros; rfl)
    (henc : ∀ off sg, encode (f off sg) = val :: wordBytes off ++ wordBytes sg := by intros; rfl) :
    (rowFar val f).Spells fun i => ∃ off sg, i = f off sg :=
  spells_one (fun _ v => f v.1 v.2) fieldOf_fixed (fun _ => reads_far) (by simp) (by simp [hwf]) (by simp [henc]) rfl

theorem rowRmr_spells {f : Dir → Width → RegField → RM → Instr} (hval : val &&& 0xFC = val := by rfl)
    (hwf : ∀ d w reg rm, (f d w reg rm).wellFormed = rm.wellFormed := by intros; rfl)
    (henc : ∀ d w reg rm, encode (f d w reg rm) = (val.extractLsb' 2 6 ++ d.bit ++ w.bit) :: rm.bytes reg.code := by
      intros; rfl) :
    (rowRmr val f).Spells fun i => ∃ d w reg rm, i = f d w reg rm :=
  spells_two (fun x reg rm _ => f x.1 x.2 reg rm) (fieldOf_dw hval) fieldOf_regCode rfl rfl readsOperand_rm
    (fun _ => reads_nothing) (by simp) (by simp [hwf]) (by simp [henc]) rfl

theorem rowRmrNoD_spells {f : Width → RegField → RM → Instr} (hval : val &&& 0xFE = val := by rfl)
    (hwf : ∀ w reg rm, (f w reg rm).wellFormed = rm.wellFormed := by intros; rfl)
    (henc : ∀ w reg rm, encode (f w reg rm) = (val.extractLsb' 1 7 ++ w.bit) :: rm.bytes reg.code := by intros; rfl) :
    (rowRmrNoD val f).Spells fun i => ∃ w reg rm, i = f w reg rm :=
  spells_two (fun w reg rm _ => f w reg rm) (fieldOf_w hval) fieldOf_regCode rfl rfl readsOperand_rm
    (fun _ => reads_nothing) (by simp) (by simp [hwf]) (by simp [henc]) rfl

theorem rowIrm_spells {f : RM → Imm → Instr}
    (hval : val &&& 0xFE = val := by rfl) (hval2 : val2 &&& 0x38 = val2 := by rfl)
    (hwf : ∀ rm imm, (f rm imm).wellFormed = rm.wellFormed := by intros; rfl)
    (henc : ∀ rm imm, encode (f rm imm) = (val.extractLsb' 1 7 ++ imm.width.bit) :: rm.bytes (regBits val2) ++ imm.bytes := by
      intros; rfl) :
    (rowIrm val val2 f).Spells fun i => ∃ rm imm, i = f rm imm :=
  spells_two (fun _ _ rm imm => f rm imm) (fieldOf_w hval) fieldOf_fixed rfl (eq_reg_of_and hval2) readsOperand_rm
    reads_imm (by simp) (by simp [hwf]) (by rintro _ _ _ _ rfl; simp [henc]) rfl

theorem rowIrmSw_spells {f : RM → SwImm → Instr} (hval2 : val2 &&& 0x38 = val2 := by rfl)
    (hwf : ∀ rm imm, (f rm imm).wellFormed = rm.wellFormed := by intros; rfl)
    (henc : ∀ rm imm, encode (f rm imm) = (0b100000#6 ++ imm.swBits) :: rm.bytes (regBits val2) ++ imm.bytes := by
      intros; rfl) :
    (rowIrmSw val2 f).Spells fun i => ∃ rm imm, i = f rm imm := by
  have hkind (i : Instr) : (∃ rm imm, i = f rm imm) ↔ ∃ (x : Bool × Bool) (_ : Unit) (rm : RM) (imm : SwImm),
      imm.swBits = BitVec.ofBool x.1 ++ BitVec.ofBool x.2 ∧ i = f rm imm := by
    constructor
    · rintro ⟨rm, imm, h⟩
      obtain ⟨s, w, hsw⟩ := exists_swBits imm
      exact ⟨(s, w), (), rm, imm, hsw, h⟩
    · rintro ⟨-, -, rm, imm, -, h⟩
      exact ⟨rm, imm, h⟩
  exact spells_two (fun _ _ rm imm => f rm imm) (fieldOf_sw rfl) fieldOf_fixed rfl (eq_reg_of_and hval2) readsOperand_rm
    (fun x => reads_swImm x.1 x.2) hkind (by simp [hwf]) (fun _ _ _ _ h => by simp [henc, h]) rfl

theorem rowIacc_spells {f : Imm → Instr} (hval : val &&& 0xFE = val := by rfl)
    (hwf : ∀ imm, (f imm).wellFormed = true := by intros; rfl)
    (henc : ∀ imm, encode (f imm) = (val.extractLsb' 1 7 ++ imm.width.bit) :: imm.bytes := by intros; rfl) :
    (rowIacc val f).Spells fun i => ∃ imm, i = f imm :=
  spells_one (fun _ imm => f imm) (fieldOf_w hval) reads_imm (by simp) (by simp [hwf])
    (by rintro _ _ rfl; simp [henc]) rfl

theorem rowRm1W_spells {f : Width → RM → Instr}
    (hval : val &&& 0xFE = val := by rfl) (hval2 : val2 &&& 0x38 = val2 := by rfl)
    (hwf : ∀ w rm, (f w rm).wellFormed = rm.wellFormed := by intros; rfl)
    (henc : ∀ w rm, encode (f w rm) = (val.extractLsb' 1 7 ++ w.bit) :: rm.bytes (regBits val2) := by intros; rfl) :
    (rowRm1W val val2 f).Spells fun i => ∃ w rm, i = f w rm :=
  spells_two (fun w _ rm _ => f w rm) (fieldOf_w hval) fieldOf_fixed rfl (eq_reg_of_and hval2) readsOperand_rm
    (fun _ => reads_nothing) (by simp) (by simp [hwf]) (by simp [henc]) rfl

theorem rowRm1_spells {f : RM → Instr} (hval2 : val2 &&& 0x38 = val2 := by rfl)
    (hwf : ∀ rm, (f rm).wellFormed = rm.wellFormed := by intros; rfl)
    (henc : ∀ rm, encode (f rm) = val :: rm.bytes (regBits val2) := by intros; rfl) :
    (rowRm1 val val2 f).Spells fun i => ∃ rm, i = f rm :=
  spells_two (fun _ _ rm _ => f rm) fieldOf_fixed fieldOf_fixed rfl (eq_reg_of_and hval2) readsOperand_rm
    (fun _ => reads_nothing) (by simp) (by simp [hwf]) (by simp [henc]) rfl

theorem rowMem1_spells {f : MemOp → Instr} (hval2 : val2 &&& 0x38 = val2 := by rfl)
    (hwf : ∀ m, (f m).wellFormed = m.wellFormed := by intros; rfl)
    (henc : ∀ m, encode (f m) = val :: m.bytes (regBits val2) := by intros; rfl) :
    (rowMem1 val val2 f).Spells fun i => ∃ m, i = f m :=
  spells_two (fun _ _ m _ => f m) fieldOf_fixed fieldOf_fixed rfl (eq_reg_of_and hval2) readsOperand_mem
    (fun _ => reads_nothing) (by simp) (by simp [hwf]) (by simp [henc]) rfl

theorem rowRegMem_spells {f : RegField → MemOp → Instr}
    (hwf : ∀ reg m, (f reg m).wellFormed = m.wellFormed := by intros; rfl)
    (henc : ∀ reg m, encode (f reg m) = val :: m.bytes reg.code := by intros; rfl) :
    (rowRegMem val f).Spells fun i => ∃ reg m, i = f reg m :=
  spells_two (fun _ reg m _ => f reg m) fieldOf_fixed fieldOf_regCode rfl rfl readsOperand_mem
    (fun _ => reads_nothing) (by simp) (by simp [hwf]) (by simp [henc]) rfl

theorem rowSregRm_spells {f : SReg → RM → Instr}
    (hwf : ∀ sr rm, (f sr rm).wellFormed = rm.wellFormed := by intros; rfl)
    (henc : ∀ sr rm, encode (f sr rm) = val :: rm.bytes (0b0#1 ++ sr.code) := by intros; rfl) :
    (rowSregRm val f).Spells fun i => ∃ sr rm, i = f sr rm :=
  spells_two (fun _ sr rm _ => f sr rm) (fieldOf_fixed (val := val)) fieldOf_sregCode rfl rfl readsOperand_rm
    (fun _ => reads_nothing) (by simp) (by simp [hwf]) (by simp [henc]) (by simp only [rowSregRm, segField_eq]; rfl)

theorem rowShift_spells {f : CountSel → Width → RM → Instr} (hval2 : val2 &&& 0x38 = val2 := by rfl)
    (hwf : ∀ v w rm, (f v w rm).wellFormed = rm.wellFormed := by intros; rfl)
    (henc : ∀ v w rm, encode (f v w rm) = (0b110100#6 ++ v.bit ++ w.bit) :: rm.bytes (regBits val2) := by
      intros; rfl) :
    (rowShift val2 f).Spells fun i => ∃ v w rm, i = f v w rm :=
  spells_two (fun x _ rm _ => f x.1 x.2 rm) (fieldOf_vw rfl) fieldOf_fixed rfl (eq_reg_of_and hval2) readsOperand_rm
    (fun _ => reads_nothing) (by simp) (by simp [hwf]) (by simp [henc]) rfl

theorem rowMovRegImm_spells {f : RegField → Imm → Instr} (hval : val &&& 0xF0 = val := by rfl)
    (hwf : ∀ reg imm, (f reg imm).wellFormed = true := by intros; rfl)
    (henc : ∀ reg imm, encode (f reg imm) = (val.extractLsb' 4 4 ++ imm.width.bit ++ reg.code) :: imm.bytes := by
      intros; rfl) :
    (rowMovRegImm val f).Spells fun i => ∃ reg imm, i = f reg imm :=
  spells_one (fun x imm => f x.2 imm) (fieldOf_wReg hval) (fun x => reads_imm x.1) (by simp) (by simp [hwf])
    (by rintro ⟨_, reg⟩ _ rfl; simp [henc]) rfl

theorem rowWAddr_spells {f : Width → Word → Instr} (hval : val &&& 0xFE = val := by rfl)
    (hwf : ∀ w a, (f w a).wellFormed = true := by intros; rfl)
    (henc : ∀ w a, encode (f w a) = (val.extractLsb' 1 7 ++ w.bit) :: wordBytes a := by intros; rfl) :
    (rowWAddr val f).Spells fun i => ∃ w a, i = f w a :=
  spells_one (fun w a => f w a) (fieldOf_w hval) (fun _ => reads_word) (by simp) (by simp [hwf]) (by simp [henc]) rfl

theorem rowWPort_spells {f : Width → Byte → Instr} (hval : val &&& 0xFE = val := by rfl)
    (hwf : ∀ w port, (f w port).wellFormed = true := by intros; rfl)
    (henc : ∀ w port, encode (f w port) = [val.extractLsb' 1 7 ++ w.bit, port] := by intros; rfl) :
    (rowWPort val f).Spells fun i => ∃ w port, i = f w port :=
  spells_one (fun w port => f w port) (fieldOf_w hval) (fun _ => reads_byte)
    (by simp) (by simp [hwf]) (by simp [henc]) rfl

theorem rowEsc_spells {f : BitVec 3 → BitVec 3 → RM → Instr} (hval : val &&& 0xF8 = val := by rfl)
    (hwf : ∀ x0 x1 rm, (f x0 x1 rm).wellFormed = rm.wellFormed := by intros; rfl)
    (henc : ∀ x0 x1 rm, encode (f x0 x1 rm) = (val.extractLsb' 3 5 ++ x0) :: rm.bytes x1 := by intros; rfl) :
    (rowEsc val f).Spells fun i => ∃ x0 x1 rm, i = f x0 x1 rm :=
  spells_two (fun x0 x1 rm _ => f x0 x1 rm) (fieldOf_low hval) fieldOf_three rfl rfl readsOperand_rm
    (fun _ => reads_nothing) (by simp) (by simp [hwf]) (by simp [henc]) rfl

theorem rowRep_spells {f : Bool → Instr} (hval : val &&& 0xFE = val := by rfl)
    (hwf : ∀ z, (f z).wellFormed = true := by intros; rfl)
    (henc : ∀ z, encode (f z) = [val.extractLsb' 1 7 ++ BitVec.ofBool z] := by intros; rfl) :
    (rowRep val f).Spells fun i => ∃ z, i = f z :=
  spells_one (fun z _ => f z) (fieldOf_z hval) (fun _ => reads_nothing) (by simp) (by simp [hwf]) (by simp [henc]) rfl

theorem rowBase_spells {f : Byte → Instr} (hwf : ∀ base, (f base).wellFormed = baseWellFormed base := by intros; rfl)
    (henc : ∀ base, encode (f base) = [val, base] := by intros; rfl) :
    (rowBase val f).Spells fun i => ∃ base, i = f base := by
  intro bytes i rest
  constructor
  · rintro (⟨hsecond, -⟩ | ⟨_, _, ⟨rfl, rfl⟩, b, base, bs, rfl, hb, -, h⟩)
    · cases hsecond
    · obtain rfl : b = val := fieldOf_fixed.enc_dec b hb ▸ rfl
      simp only [rowBase] at h
      split at h
      next hbase =>
        cases h
        exact ⟨⟨base, rfl⟩, (hwf base).trans hbase, by rw [henc]; rfl⟩
      next => cases h
  · rintro ⟨⟨base, rfl⟩, hbase, rfl⟩
    rw [hwf] at hbase
    exact .inr ⟨_, _, rfl, val, base, rest, by rw [henc]; rfl, BitVec.and_allOnes, BitVec.and_zero, if_pos hbase⟩

end Sys2Proof
end

section
/-! PROOFS. Decoding and encoding are inverse (30_encoding.md R60 to R76): every row of the table spells its instructions,
and every instruction has its row. -/

namespace Sys2Proof

/-! ### The table -/

theorem rowsDataTransfer_spell : ∀ r ∈ rowsDataTransfer, ∃ P, r.Spells P := by
  simp only [rowsDataTransfer, List.forall_mem_cons]
  exact ⟨⟨_, rowRmr_spells⟩, ⟨_, rowIrm_spells⟩, ⟨_, rowMovRegImm_spells⟩, ⟨_, rowWAddr_spells⟩,
    ⟨_, rowWAddr_spells⟩, ⟨_, rowSregRm_spells⟩, ⟨_, rowSregRm_spells⟩, ⟨_, rowRm1_spells⟩, ⟨_, rowReg_spells⟩,
    ⟨_, rowSreg_spells⟩, ⟨_, rowRm1_spells⟩, ⟨_, rowReg_spells⟩, ⟨_, rowSreg_spells⟩, ⟨_, rowRmrNoD_spells⟩,
    ⟨_, rowReg_spells⟩, ⟨_, rowWPort_spells⟩, ⟨_, rowW_spells⟩, ⟨_, rowWPort_spells⟩, ⟨_, rowW_spells⟩,
    ⟨_, rowPlain_spells⟩, ⟨_, rowRegMem_spells⟩, ⟨_, rowRegMem_spells⟩, ⟨_, rowRegMem_spells⟩,
    ⟨_, rowPlain_spells⟩, ⟨_, rowPlain_spells⟩, ⟨_, rowPlain_spells⟩, ⟨_, rowPlain_spells⟩, nofun⟩

theorem rowsArithmetic_spell : ∀ r ∈ rowsArithmetic, ∃ P, r.Spells P := by
  simp only [rowsArithmetic, List.forall_mem_cons]
  exact ⟨⟨_, rowRmr_spells⟩, ⟨_, rowIrmSw_spells⟩, ⟨_, rowIacc_spells⟩, ⟨_, rowRmr_spells⟩, ⟨_, rowIrmSw_spells⟩,
    ⟨_, rowIacc_spells⟩, ⟨_, rowRm1W_spells⟩, ⟨_, rowReg_spells⟩, ⟨_, rowPlain_spells⟩, ⟨_, rowPlain_spells⟩,
    ⟨_, rowRmr_spells⟩, ⟨_, rowIrmSw_spells⟩, ⟨_, rowIacc_spells⟩, ⟨_, rowRmr_spells⟩, ⟨_, rowIrmSw_spells⟩,
    ⟨_, rowIacc_spells⟩, ⟨_, rowRm1W_spells⟩, ⟨_, rowReg_spells⟩, ⟨_, rowRm1W_spells⟩, ⟨_, rowRmr_spells⟩,
    ⟨_, rowIrmSw_spells⟩, ⟨_, rowIacc_spells⟩, ⟨_, rowPlain_spells⟩, ⟨_, rowPlain_spells⟩, ⟨_, rowRm1W_spells⟩,
    ⟨_, rowRm1W_spells⟩, ⟨_, rowBase_spells⟩, ⟨_, rowRm1W_spells⟩, ⟨_, rowRm1W_spells⟩, ⟨_, rowBase_spells⟩,
    ⟨_, rowPlain_spells⟩, ⟨_, rowPlain_spells⟩, nofun⟩

theorem rowsLogic_spell : ∀ r ∈ rowsLogic, ∃ P, r.Spells P := by
  simp only [rowsLogic, List.forall_mem_cons]
  exact ⟨⟨_, rowRm1W_spells⟩, ⟨_, rowShift_spells⟩, ⟨_, rowShift_spells⟩, ⟨_, rowShift_spells⟩,
    ⟨_, rowShift_spells⟩, ⟨_, rowShift_spells⟩, ⟨_, rowShift_spells⟩, ⟨_, rowShift_spells⟩, ⟨_, rowRmr_spells⟩,
    ⟨_, rowIrm_spells⟩, ⟨_, rowIacc_spells⟩, ⟨_, rowRmrNoD_spells⟩, ⟨_, rowIrm_spells⟩, ⟨_, rowIacc_spells⟩,
    ⟨_, rowRmr_spells⟩, ⟨_, rowIrm_spells⟩, ⟨_, rowIacc_spells⟩, ⟨_, rowRmr_spells⟩, ⟨_, rowIrm_spells⟩,
    ⟨_, rowIacc_spells⟩, nofun⟩

theorem rowsString_spell : ∀ r ∈ rowsString, ∃ P, r.Spells P := by
  simp only [rowsString, List.forall_mem_cons]
  exact ⟨⟨_, rowRep_spells⟩, ⟨_, rowW_spells⟩, ⟨_, rowW_spells⟩, ⟨_, rowW_spells⟩, ⟨_, rowW_spells⟩,
    ⟨_, rowW_spells⟩, nofun⟩

theorem rowsControlTransfer_spell : ∀ r ∈ rowsControlTransfer, ∃ P, r.Spells P := by
  simp only [rowsControlTransfer, List.forall_mem_cons]
  exact ⟨⟨_, rowWord_spells⟩, ⟨_, rowRm1_spells⟩, ⟨_, rowFar_spells⟩, ⟨_, rowMem1_spells⟩, ⟨_, rowWord_spells⟩,
    ⟨_, rowByte_spells⟩, ⟨_, rowRm1_spells⟩, ⟨_, rowFar_spells⟩, ⟨_, rowMem1_spells⟩, ⟨_, rowPlain_spells⟩,
    ⟨_, rowWord_spells⟩, ⟨_, rowPlain_spells⟩, ⟨_, rowWord_spells⟩, ⟨_, rowByte_spells⟩, ⟨_, rowByte_spells⟩,
    ⟨_, rowByte_spells⟩, ⟨_, rowByte_spells⟩, ⟨_, rowByte_spells⟩, ⟨_, rowByte_spells⟩, ⟨_, rowByte_spells⟩,
    ⟨_, rowByte_spells⟩, ⟨_, rowByte_spells⟩, ⟨_, rowByte_spells⟩, ⟨_, rowByte_spells⟩, ⟨_, rowByte_spells⟩,
    ⟨_, rowByte_spells⟩, ⟨_, rowByte_spells⟩, ⟨_, rowByte_spells⟩, ⟨_, rowByte_spells⟩, ⟨_, rowByte_spells⟩,
    ⟨_, rowByte_spells⟩, ⟨_, rowByte_spells⟩, ⟨_, rowByte_spells⟩, ⟨_, rowByte_spells⟩, ⟨_, rowPlain_spells⟩,
    ⟨_, rowPlain_spells⟩, ⟨_, rowPlain_spells⟩, nofun⟩

theorem rowsProcessorControl_spell : ∀ r ∈ rowsProcessorControl, ∃ P, r.Spells P := by
  simp only [rowsProcessorControl, List.forall_mem_cons]
  exact ⟨⟨_, rowPlain_spells⟩, ⟨_, rowPlain_spells⟩, ⟨_, rowPlain_spells⟩, ⟨_, rowPlain_spells⟩,
    ⟨_, rowPlain_spells⟩, ⟨_, rowPlain_spells⟩, ⟨_, rowPlain_spells⟩, ⟨_, rowPlain_spells⟩,
    ⟨_, rowPlain_spells⟩, ⟨_, rowEsc_spells⟩, ⟨_, rowPlain_spells⟩, ⟨_, rowSreg_spells⟩, nofun⟩

/-- Every row of the table accepts the encodings of the well-formed instructions of some kind and nothing else. -/
theorem rows_spell : ∀ r ∈ rows, ∃ P, r.Spells P := by
  simp only [rows, List.forall_mem_append]
  exact ⟨⟨⟨⟨⟨rowsDataTransfer_spell, rowsArithmetic_spell⟩, rowsLogic_spell⟩, rowsString_spell⟩,
    rowsControlTransfer_spell⟩, rowsProcessorControl_spell⟩

/-- Every instruction is of the kind of its row; rows and constructors stand in one order. -/
theorem exists_row_spells (i : Instr) : ∃ r P, rows[i.ctorIdx]? = some r ∧ r.Spells P ∧ P i := by
  cases i with
  | movRmReg | addRmReg | adcRmReg | subRmReg | sbbRmReg | cmpRmReg | andRmReg | orRmReg | xorRmReg =>
    exact ⟨_, _, rfl, rowRmr_spells, _, _, _, _, rfl⟩
  | movRmImm | andRmImm | testRmImm | orRmImm | xorRmImm => exact ⟨_, _, rfl, rowIrm_spells, _, _, rfl⟩
  | movRegImm => exact ⟨_, _, rfl, rowMovRegImm_spells, _, _, rfl⟩
  | movAccMem | movMemAcc => exact ⟨_, _, rfl, rowWAddr_spells, _, _, rfl⟩
  | movSregRm | movRmSreg => exact ⟨_, _, rfl, rowSregRm_spells, _, _, rfl⟩
  | pushRm | popRm | callRm | jmpRm => exact ⟨_, _, rfl, rowRm1_spells, _, rfl⟩
  | pushReg | popReg | xchgAccReg | incReg | decReg => exact ⟨_, _, rfl, rowReg_spells, _, rfl⟩
  | pushSreg | popSreg | seg => exact ⟨_, _, rfl, rowSreg_spells, _, rfl⟩
  | xchgRmReg | testRmReg => exact ⟨_, _, rfl, rowRmrNoD_spells, _, _, _, rfl⟩
  | inFixed | outFixed => exact ⟨_, _, rfl, rowWPort_spells, _, _, rfl⟩
  | inVariable | outVariable | movs | cmps | scas | lods | stos => exact ⟨_, _, rfl, rowW_spells, _, rfl⟩
  | xlat | lahf | sahf | pushf | popf | aaa | daa | aas | das | cbw | cwd | ret | retFar | int3 | into | iret | clc
  | cmc | stc | cld | std | cli | sti | hlt | wait | lock => exact ⟨_, _, rfl, rowPlain_spells, rfl⟩
  | lea | lds | les => exact ⟨_, _, rfl, rowRegMem_spells, _, _, rfl⟩
  | addRmImm | adcRmImm | subRmImm | sbbRmImm | cmpRmImm => exact ⟨_, _, rfl, rowIrmSw_spells, _, _, rfl⟩
  | addAccImm | adcAccImm | subAccImm | sbbAccImm | cmpAccImm | andAccImm | testAccImm | orAccImm | xorAccImm =>
    exact ⟨_, _, rfl, rowIacc_spells, _, rfl⟩
  | incRm | decRm | neg | mul | imul | div | idiv | not => exact ⟨_, _, rfl, rowRm1W_spells, _, _, rfl⟩
  | aam | aad => exact ⟨_, _, rfl, rowBase_spells, _, rfl⟩
  | shl | shr | sar | rol | ror | rcl | rcr => exact ⟨_, _, rfl, rowShift_spells, _, _, _, rfl⟩
  | rep => exact ⟨_, _, rfl, rowRep_spells, _, rfl⟩
  | callRel | jmpRel | retImm | retFarImm => exact ⟨_, _, rfl, rowWord_spells, _, rfl⟩
  | callFar | jmpFar => exact ⟨_, _, rfl, rowFar_spells, _, _, rfl⟩
  | callFarMem | jmpFarMem => exact ⟨_, _, rfl, rowMem1_spells, _, rfl⟩
  | jmpShort | je | jl | jle | jb | jbe | jp | jo | js | jne | jnl | jnle | jnb | jnbe | jnp | jno | jns | loop
  | loopz | loopnz | jcxz | int => exact ⟨_, _, rfl, rowByte_spells, _, rfl⟩
  | esc => exact ⟨_, _, rfl, rowEsc_spells, _, _, _, rfl⟩

/-! ### Round trips -/

theorem decode_encode {i : Instr} (hi : i.wellFormed = true) (rest : List Byte) :
    decode (encode i ++ rest) = .ok (i, rest) := by
  obtain ⟨r, P, hrow, hr, hP⟩ := exists_row_spells i
  exact decode_ok_iff.mpr ⟨r, List.mem_of_getElem? hrow, (hr _ _ _).mpr ⟨hP, hi, rfl⟩⟩

theorem encode_of_decode {bytes rest : List Byte} {i : Instr} (h : decode bytes = .ok (i, rest)) :
    i.wellFormed = true ∧ encode i ++ rest = bytes := by
  obtain ⟨r, hr, haccepts⟩ := decode_ok_iff.mp h
  obtain ⟨P, hspells⟩ := rows_spell r hr
  exact ((hspells _ _ _).mp haccepts).2

end Sys2Proof

open Sys2Proof

/-- Settles O1: every instruction has its row, and the row accepts its bytes. -/
theorem decodeOfEncode : Obligations.DecodeOfEncode := fun _ rest hi => decode_encode hi rest

/-- Settles O2: the row that accepts the bytes spells the encodings of its kind and nothing else. -/
theorem encodeOfDecode : Obligations.EncodeOfDecode := fun _ _ _ => encode_of_decode
end

section
/-! PROOFS. The encodings that match no row are refused whatever follows, and how long the others are (30_encoding.md R60,
R79). -/

namespace Sys2Proof

/-! ### Bytes that no row fits -/

/-- A first byte without a row (30 R79 item 1). -/
theorem decode_unassigned {b : Byte} (h : ∀ r ∈ rows, b &&& r.mask ≠ r.val) (rest : List Byte) :
    decode (b :: rest) = .error (.unassigned b) := by
  have hfind : rows.find? (fun r => r.fits b (rest.headD 0)) = none :=
    List.find?_eq_none.mpr fun r hr hfits => h r hr (Row.fits_iff.mp hfits).1
  have hany : (rows.any fun r => b &&& r.mask == r.val) = false :=
    List.any_eq_false.mpr fun r hr => by simpa using h r hr
  simp only [decode, hfind, noRow, hany]
  rfl

/-- A first byte whose rows all need another second byte (30 R79 items 2 to 5). -/
theorem decode_unassignedSecond {b m : Byte} (hfirst : ∃ r ∈ rows, b &&& r.mask = r.val)
    (h : ∀ r ∈ rows, r.fits b m = false) (rest : List Byte) :
    decode (b :: m :: rest) = .error (.unassignedSecond b m) := by
  have hfind : rows.find? (fun r => r.fits b m) = none :=
    List.find?_eq_none.mpr fun r hr => by simp [h r hr]
  have hany : (rows.any fun r => b &&& r.mask == r.val) = true :=
    List.any_eq_true.mpr (hfirst.imp fun r hr => by simpa using hr)
  simp [decode, hfind, noRow, hany]

/-- No row looks at the second byte outside its reg position. -/
theorem rows_second_reg : ∀ r ∈ rows, (r.second.all fun p => p.1 &&& 0x38 == p.1) = true := by decide +kernel

theorem Row.fits_regBits {r : Row} (hr : r ∈ rows) (b m : Byte) :
    r.fits b m = r.fits b (0b00#2 ++ regBits m ++ 0b000#3) := by
  have hreg : ∀ m : Byte, 0b00#2 ++ regBits m ++ 0b000#3 = m &&& 0x38 := by decide
  have hsecond (p : Byte × Byte) (hp : r.second = some p) : m &&& 0x38 &&& p.1 = m &&& p.1 := by
    have hp2 : p.1 &&& 0x38 = p.1 := by simpa [hp] using rows_second_reg r hr
    rw [BitVec.and_assoc, BitVec.and_comm 0x38, hp2]
  rw [Bool.eq_iff_iff, Row.fits_iff, Row.fits_iff, hreg]
  exact and_congr_right fun _ => forall₂_congr fun p hp => by rw [hsecond p hp]

/-- The holes of the groups, by the first byte and the reg position (30 R79 items 2 to 5). -/
def IsHole (b : Byte) (reg : BitVec 3) : Prop :=
  (b ∈ ([0x82, 0x83] : List Byte) ∧ reg ∈ ([0b001, 0b100, 0b110] : List (BitVec 3))) ∨
  (b ∈ ([0xD0, 0xD1, 0xD2, 0xD3] : List Byte) ∧ reg = 0b110) ∨
  (b ∈ ([0xF6, 0xF7] : List Byte) ∧ reg = 0b001) ∨
  (b = 0xFE ∧ reg ∈ ([0b010, 0b011, 0b100, 0b101, 0b110, 0b111] : List (BitVec 3))) ∨
  (b = 0xFF ∧ reg = 0b111) ∨
  (b ∈ ([0x8F, 0xC6, 0xC7] : List Byte) ∧ reg ≠ 0b000) ∨
  (b ∈ ([0x8C, 0x8E] : List Byte) ∧ reg.getLsbD 2 = true)

theorem not_fits_of_isHole : ∀ (b : Byte) (reg : BitVec 3), IsHole b reg →
    (∃ r ∈ rows, b &&& r.mask = r.val) ∧ ∀ r ∈ rows, r.fits b (0b00#2 ++ reg ++ 0b000#3) = false := by
  unfold IsHole
  decide +kernel

theorem decode_of_isHole {b m : Byte} (h : IsHole b (regBits m)) (rest : List Byte) :
    decode (b :: m :: rest) = .error (.unassignedSecond b m) := by
  obtain ⟨hfirst, hnone⟩ := not_fits_of_isHole b _ h
  exact decode_unassignedSecond hfirst (fun r hr => (Row.fits_regBits hr b m).trans (hnone r hr)) rest

/-! ### Bytes that the row that fits refuses -/

/-- AAM and AAD with a second byte other than 0x0A (30 R79 item 6). -/
theorem decode_adjustBase {b m : Byte} {f : Byte → Instr} (hr : rowBase b f ∈ rows) (hm : m ≠ 0x0A) (rest : List Byte) :
    decode (b :: m :: rest) = .error (.adjustBase m) := by
  refine (decode_of_fits_two hr rfl BitVec.and_allOnes BitVec.and_zero rest).trans (if_neg ?_)
  simpa [baseWellFormed, Config.aamAadAnyBase] using hm

/-- A register operand of LEA, LDS and LES (30 R79 item 7). -/
theorem decode_rowRegMem_reg {b m : Byte} {f : RegField → MemOp → Instr} (hr : rowRegMem b f ∈ rows)
    (hm : modField m = 0b11#2) (rest : List Byte) : decode (b :: m :: rest) = .error (.registerOperand b m) := by
  exact (decode_of_fits_two hr rfl BitVec.and_allOnes BitVec.and_zero rest).trans
    (withMem_reg hm b rest fun mem => done (f (.ofCode (regBits m)) mem))

/-- A register operand of an intersegment CALL or JMP through memory (30 R79 item 7). -/
theorem decode_rowMem1_reg {b m : Byte} {reg : BitVec 3} {f : MemOp → Instr}
    (hr : rowMem1 b (0b00#2 ++ reg ++ 0b000#3) f ∈ rows) (hreg : regBits m = reg) (hm : modField m = 0b11#2)
    (rest : List Byte) : decode (b :: m :: rest) = .error (.registerOperand b m) := by
  have hsecond : m &&& 0x38 = 0b00#2 ++ reg ++ 0b000#3 :=
    (and_reg_eq_iff (mask := 0b111#3) m).mpr (hreg ▸ BitVec.and_allOnes)
  exact (decode_of_fits_two hr rfl BitVec.and_allOnes hsecond rest).trans
    (withMem_reg hm b rest fun mem => done (f mem))

/-- The row of an instruction is in the table. -/
theorem mem_rows_of_ctorIdx (i : Instr) {r : Row} (h : rows[i.ctorIdx]? = some r) : r ∈ rows := List.mem_of_getElem? h

end Sys2Proof

open Sys2Proof

/-- Settles O5: no row has the first byte; no row has the reg position with it; the row that fits refuses the second byte. -/
theorem encodingsWithoutMeaning : Obligations.EncodingsWithoutMeaning := by
  intro rest
  refine ⟨fun b hb => ?_, fun b m h => ?_, fun b m hb hm => ?_, fun b m hmod hb => ?_⟩
  · have hnone : ∀ b ∈ ([0x60, 0x61, 0x62, 0x63, 0x64, 0x65, 0x66, 0x67, 0x68, 0x69, 0x6A, 0x6B, 0x6C, 0x6D, 0x6E, 0x6F,
        0xC0, 0xC1, 0xC8, 0xC9, 0xD6, 0xF1] : List Byte), ∀ r ∈ rows, b &&& r.mask ≠ r.val := by decide +kernel
    exact decode_unassigned (hnone b hb) rest
  · have hbit : (regBits m).getLsbD 2 = m.getLsbD 5 := by simp [regBits]
    exact decode_of_isHole (by rwa [IsHole, hbit]) rest
  · simp only [List.mem_cons, List.not_mem_nil, or_false] at hb
    rcases hb with rfl | rfl
    · exact decode_adjustBase (mem_rows_of_ctorIdx (.aam 0) rfl) hm rest
    · exact decode_adjustBase (mem_rows_of_ctorIdx (.aad 0) rfl) hm rest
  · simp only [List.mem_cons, List.not_mem_nil, or_false] at hb
    rcases hb with (rfl | rfl | rfl) | ⟨rfl, hreg | hreg⟩
    · exact decode_rowRegMem_reg (mem_rows_of_ctorIdx (.lea .axAl (.direct 0)) rfl) hmod rest
    · exact decode_rowRegMem_reg (mem_rows_of_ctorIdx (.les .axAl (.direct 0)) rfl) hmod rest
    · exact decode_rowRegMem_reg (mem_rows_of_ctorIdx (.lds .axAl (.direct 0)) rfl) hmod rest
    · exact decode_rowMem1_reg (mem_rows_of_ctorIdx (.callFarMem (.direct 0)) rfl) hreg hmod rest
    · exact decode_rowMem1_reg (mem_rows_of_ctorIdx (.jmpFarMem (.direct 0)) rfl) hreg hmod rest

/-- Settles O3: after the first byte come at most five more, by the form of the encoding. -/
theorem encodedLength : Obligations.EncodedLength := by
  open Laws.EncodedLength in
  intro i
  cases i with
  | movRmReg | addRmReg | adcRmReg | subRmReg | sbbRmReg | cmpRmReg | andRmReg | testRmReg | orRmReg | xorRmReg
  | movSregRm | movRmSreg | xchgRmReg | pushRm | popRm | incRm | decRm | neg | mul | imul | div | idiv | not
  | shl | shr | sar | rol | ror | rcl | rcr | callRm | jmpRm | esc => exact rmTail _ _ _
  | lea | lds | les | callFarMem | jmpFarMem => exact memTail _ _ _
  | movRmImm | andRmImm | testRmImm | orRmImm | xorRmImm => exact rmImmTail _ _ _ _
  | addRmImm | adcRmImm | subRmImm | sbbRmImm | cmpRmImm => exact rmSwImmTail _ _ _ _
  | movRegImm | addAccImm | adcAccImm | subAccImm | sbbAccImm | cmpAccImm | andAccImm | testAccImm | orAccImm
  | xorAccImm => exact immTail _ _
  | callFar | jmpFar => exact farTail _ _ _
  | movAccMem | movMemAcc | callRel | jmpRel | retImm | retFarImm => exact wordTail _ _
  | inFixed | outFixed | aam | aad | jmpShort | je | jl | jle | jb | jbe | jp | jo | js | jne | jnl | jnle | jnb | jnbe
  | jnp | jno | jns | loop | loopz | loopnz | jcxz | int => exact two _ _
  | pushReg | pushSreg | popReg | popSreg | xchgAccReg | inVariable | outVariable | xlat | lahf | sahf | pushf | popf
  | incReg | aaa | daa | decReg | aas | das | cbw | cwd | rep | movs | cmps | scas | lods | stos | ret | retFar | int3
  | into | iret | clc | cmc | stc | cld | std | cli | sti | hlt | wait | lock | seg => exact one _
end

section
/-! PROOFS. Fetching, prefixes and the step around one instruction (30_encoding.md R60, R75, R76, R79; 20_memory.md R54;
60_exceptions.md R234). -/

namespace Sys2Proof.Machine

/-! ### Fetching -/

theorem State.codeBytes_length (s : State) : s.codeBytes.length = 6 := rfl

/-- Of the bytes at CS:IP those that are not left over belong to the instruction. -/
theorem State.encode_length_of_decode {s : State} {i : Instr} {rest : List Byte} (h : decode s.codeBytes = .ok (i, rest)) :
    6 - rest.length = (encode i).length := by
  have hlength := congrArg List.length (encode_of_decode h).2
  rw [List.length_append, s.codeBytes_length] at hlength
  omega

theorem State.fetch_of_undecodable {s : State} {e : DecodeError} (h : decode s.codeBytes = .error e) :
    s.fetch = .error (.undecodable e) := by
  simp only [State.fetch, h]

theorem State.fetch_of_stale {s : State} {i : Instr} {rest : List Byte} (h : decode s.codeBytes = .ok (i, rest))
    (hstale : ∃ a ∈ s.codeAddrs (6 - rest.length), a ∈ s.staleCode) : s.fetch = .error .stalePrefetch := by
  have hany : ((s.codeAddrs (6 - rest.length)).any fun a => s.staleCode.contains a) = true := by simpa using hstale
  simp only [State.fetch, h, s.codeBytes_length, hany, if_true]

theorem State.fetch_of_fresh {s : State} {i : Instr} {rest : List Byte} (h : decode s.codeBytes = .ok (i, rest))
    (hfresh : ∀ a ∈ s.codeAddrs (6 - rest.length), a ∉ s.staleCode) :
    s.fetch = .ok (i, { s with ip := s.ip + BitVec.ofNat 16 (6 - rest.length) }) := by
  have hany : ((s.codeAddrs (6 - rest.length)).any fun a => s.staleCode.contains a) = false := by simpa using hfresh
  simp only [State.fetch, h, s.codeBytes_length, hany]
  rfl

/-! ### One instruction with its prefixes -/

section

variable {finish : Instr → State → Host.Outcome State Fault Refusal} {fuel : Nat} {s s1 : State} {i : Instr}

theorem runWith_of_fetch_error {r : Refusal} (h : s.fetch = .error r) : runWith finish (fuel + 1) s = .refused r := by
  simp only [runWith, h]

/-- The meaning of one of the prefixes, then the instruction from the next byte on (30 R75). -/
theorem runWith_of_prefix {s2 : State} (h : s.fetch = .ok (i, s1)) (hi : i.actsAsPrefix = true)
    (hexec : exec i s1 = .next s2) : runWith finish (fuel + 1) s = runWith finish fuel s2 := by
  simp only [runWith, h, hi, if_true, hexec]

theorem runWith_of_instr (h : s.fetch = .ok (i, s1)) (hi : i.actsAsPrefix = false)
    (hrep : s1.pfx.rep = none ∨ i.isStringPrimitive = true) : runWith finish (fuel + 1) s = finish i s1 := by
  have hallowed : (s1.pfx.rep.isSome && !i.isStringPrimitive) = false := by
    rcases hrep with h | h <;> simp [h]
  simp only [runWith, h, hi, hallowed, Bool.false_eq_true, if_false]

/-- REP before anything but a string primitive (30 R79 item 9). -/
theorem runWith_of_rep (h : s.fetch = .ok (i, s1)) (hi : i.actsAsPrefix = false) (hrep : s1.pfx.rep ≠ none)
    (hstring : i.isStringPrimitive = false) : runWith finish (fuel + 1) s = .refused .repBeforeNonString := by
  have hrefused : (s1.pfx.rep.isSome && !i.isStringPrimitive) = true := by
    simp [hstring, Option.isSome_iff_ne_none.mpr hrep]
  simp only [runWith, h, hi, hrefused, Bool.false_eq_true, if_false, if_true]

end

/-- Each of the prefixes is one byte long. -/
theorem encode_length_of_prefix {i : Instr} (hi : i.actsAsPrefix = true) : (encode i).length = 1 := by
  cases i with
  | rep | lock | seg => rfl
  | _ => cases hi

/-- One of the prefixes at CS:IP: IP goes past its byte, and its meaning is recorded. -/
theorem runWith_prefix_at {finish : Instr → State → Host.Outcome State Fault Refusal} {fuel : Nat} {s t : State} {i : Instr}
    {rest : List Byte} (h : decode s.codeBytes = .ok (i, rest))
    (hfresh : ∀ a ∈ s.codeAddrs (6 - rest.length), a ∉ s.staleCode) (hi : i.actsAsPrefix = true)
    (hexec : exec i { s with ip := s.ip + 1 } = .next t) : runWith finish (fuel + 1) s = runWith finish fuel t := by
  have hfetch := State.fetch_of_fresh h hfresh
  rw [State.encode_length_of_decode h, encode_length_of_prefix hi] at hfetch
  exact runWith_of_prefix hfetch hi hexec

/-! ### The step around it -/

/-- The step of a running machine: its instruction, then the boundary (60 R234). -/
theorem step_of_runs {s : State} (hruns : s.Runs) (hs : s.halted = false) :
    step s = finishInstr (runInstr Config.codeSegmentBytes s.begun) := by
  rcases hruns with h | h <;> simp only [step, stepOf, h, hs] <;> rfl

/-- What the fetch of the first byte refuses the step refuses, whether RESET comes in the instruction or not. -/
theorem step_of_fetch_error {s : State} {r : Refusal} (hreset : s.input.reset ≠ .atStart) (hs : s.halted = false)
    (h : s.begun.fetch = .error r) : step s = .refused r := by
  have hrun (finish : Instr → State → Host.Outcome State Fault Refusal) :
      runWith finish Config.codeSegmentBytes s.begun = .refused r := runWith_of_fetch_error (fuel := 65535) h
  cases hin : s.input.reset with
  | atStart => exact absurd hin hreset
  | inactive => rw [step_of_runs (.inl hin) hs, runInstr, hrun]; rfl
  | atBoundary => rw [step_of_runs (.inr hin) hs, runInstr, hrun]; rfl
  | inInstr =>
    rw [step, stepOf, hin, hs]
    exact hrun abortInstr

/-- The instruction is over: its prefixes are dropped and the boundary is looked at, unless an NMI edge came too early
(93_implementation_defined.md U15). -/
theorem finishInstr_next {t : State} (h : t.justReset = false ∨ t.input.reset ≠ .inactive ∨ t.nmiNow = false) :
    finishInstr (.next t) = .next t.ended.boundary := by
  have hallowed : (t.justReset && t.nmiNow && t.input.reset == .inactive) = false := by
    rcases h with h | h | h <;> simp [h]
  simp only [finishInstr, hallowed]
  rfl

theorem finishInstr_early {t : State} (hjust : t.justReset = true) (hreset : t.input.reset = .inactive)
    (hnmi : t.nmiNow = true) : finishInstr (.next t) = .refused .nmiBeforeFirstBoundary := by
  simp [finishInstr, hjust, hreset, hnmi]

end Sys2Proof.Machine

open Sys2Proof Sys2Proof.Machine

/-- Settles O12: each clause is one turn of `runWith` on what the fetch gives. -/
theorem prefixesActOnNext : Obligations.PrefixesActOnNext := by
  refine ⟨fun _ _ => rfl, fun finish s => ⟨rfl, fun fuel i rest h hfresh => ?_⟩⟩
  have hfetch := State.fetch_of_fresh h hfresh
  refine ⟨?_, ?_, ?_, runWith_of_instr hfetch, fun hi hrep => runWith_of_rep hfetch hi hrep⟩
  · rintro sr rfl
    exact runWith_prefix_at h hfresh rfl rfl
  · rintro z rfl
    exact runWith_prefix_at h hfresh rfl rfl
  · rintro rfl
    exact runWith_prefix_at h hfresh rfl rfl

/-- Settles O11: an instruction begins without prefixes, so the fetched one runs at once. -/
theorem stepRunsDecoded : Obligations.StepRunsDecoded := by
  refine ⟨fun s hruns hs => ⟨step_of_runs hruns hs, fun i rest h hfresh hi => ?_⟩, fun t ht => finishInstr_next ?_⟩
  · have hfetch := State.fetch_of_fresh (s := s.begun) h hfresh
    rw [step_of_runs hruns hs]
    exact congrArg finishInstr (runWith_of_instr (fuel := 65535) hfetch hi (.inl rfl))
  · exact ht.imp_right (Or.imp_right fun ⟨hpending, hedge⟩ => by simp [State.nmiNow, hpending, hedge])

/-- Settles O13: the fetch refuses the bytes, and the early NMI edge is refused where the instruction ends. -/
theorem stepRefusesUnknownBytes : Obligations.StepRefusesUnknownBytes := by
  refine ⟨fun s hreset hs => ⟨fun e h => ?_, fun i rest h hstale => ?_⟩, fun t hjust hreset hnmi => ?_⟩
  · exact step_of_fetch_error hreset hs (State.fetch_of_undecodable (s := s.begun) h)
  · exact step_of_fetch_error hreset hs (State.fetch_of_stale (s := s.begun) h hstale)
  · exact finishInstr_early hjust hreset (by simpa [State.nmiNow] using hnmi)

/-- Settles O20: each sum and each default segment is the row of the table; an override goes before the default. -/
theorem effectiveAddressTable : Obligations.EffectiveAddressTable := by
  intro s a d
  have hdefault (hnone : s.pfx.seg = none) (m : MemOp) : s.eaSeg m = s.seg.get (MemOp.defaultSeg m) := by
    simp only [State.eaSeg, State.dataSeg, hnone, Option.getD_none]
  refine ⟨rfl, rfl, rfl, rfl, rfl, rfl, rfl, rfl, rfl, fun _ => ⟨rfl, rfl⟩, fun hnone => ⟨hdefault hnone _, ?_, ?_⟩, ?_⟩
  · intro base hbase
    have hds : EaBase.defaultSeg base = .ds := by revert base; decide
    simp only [hdefault hnone, MemOp.defaultSeg, hds, SegRegs.get, and_self]
  · intro base hbase
    have hss : EaBase.defaultSeg base = .ss := by revert base; decide
    simp only [hdefault hnone, MemOp.defaultSeg, hss, SegRegs.get, and_self]
  · intro sr m hsome
    simp only [State.eaSeg, State.dataSeg, hsome, Option.getD_some]
end

section
/-! PROOFS. Data transfer (40_data_transfer.md): writes that change one operand only, exchanges, LAHF's byte, and ports
(20_memory.md R48). -/

namespace Sys2Proof

/-- Bytes that spell the encoding of an instruction decode to it. -/
theorem decode_of_encode_eq {i : Instr} {bytes rest : List Byte} (hi : i.wellFormed = true)
    (h : encode i ++ rest = bytes) : decode bytes = .ok (i, rest) :=
  h ▸ decode_encode hi rest

end Sys2Proof

namespace Sys2Proof.Machine

/-! ### One operand written -/

/-- Writing an operand changes nothing but the operand, no flag either. -/
theorem State.write_wroteOnly (s : State) (hs : s.mem.wf = true) (w : Width) (p : Place) (v : BitVec w.bits) :
    s.WroteOnly (s.write w p v) w p v :=
  ⟨s.write_wrote hs w p v, s.write_flags w p v, s.write_freeCount w p v⟩

theorem State.read_reg_write_reg_other (s : State) (w : Width) {r q : RegField} (h : q ≠ r) (v : BitVec w.bits) :
    (s.write w (.reg r) v).read w (.reg q) = s.read w (.reg q) := by
  cases w with
  | byte => exact Gpr.getByte_setByte_other _ _ _ _ h
  | word => exact Gpr.get_set_other _ _ _ _ h

theorem State.read_mem_write_reg (s : State) (w : Width) (r : RegField) (sg off : Word) (v : BitVec w.bits) :
    (s.write w (.reg r) v).read w (.mem sg off) = s.read w (.mem sg off) := by
  cases w <;> rfl

/-! ### Exchanges -/

/-- The operand at `p` and the register `q` take each other's value, `p` first (40_data_transfer.md R103; 20_memory.md
R57 (e)). -/
def State.exchanged (s : State) (w : Width) (p : Place) (q : RegField) : State :=
  (s.write w p (s.read w (.reg q))).write w (.reg q) (s.read w p)

theorem exec_xchgRmReg (w : Width) (q : RegField) (rm : RM) (s : State) :
    exec (.xchgRmReg w q rm) s = .next (s.exchanged w (s.place rm) q) := rfl

/-- The short form is the word exchange of AX (40 R104). -/
theorem exec_xchgAccReg (q : RegField) (s : State) :
    exec (.xchgAccReg q) s = .next (s.exchanged .word (.reg .axAl) q) := rfl

section

variable (s : State) (w : Width) (r q : RegField) (sg off : Word)

theorem State.exchanged_read_right (hs : s.mem.wf = true) (p : Place) :
    (s.exchanged w p q).read w (.reg q) = s.read w p :=
  State.read_write_same _ (s.write_wf hs w p _) w (.reg q) _

theorem State.exchanged_read_reg (hs : s.mem.wf = true) :
    (s.exchanged w (.reg r) q).read w (.reg r) = s.read w (.reg q) := by
  by_cases h : r = q
  · subst h
    exact s.exchanged_read_right w r hs (.reg r)
  · rw [State.exchanged, State.read_reg_write_reg_other _ w h, s.read_write_same hs]

theorem State.exchanged_read_mem (hs : s.mem.wf = true) :
    (s.exchanged w (.mem sg off) q).read w (.mem sg off) = s.read w (.reg q) := by
  rw [State.exchanged, State.read_mem_write_reg, s.read_write_same hs]

theorem State.exchanged_read_other {x : RegField} (hr : x ≠ r) (hq : x ≠ q) :
    (s.exchanged w (.reg r) q).read w (.reg x) = s.read w (.reg x) := by
  rw [State.exchanged, State.read_reg_write_reg_other _ w hq, State.read_reg_write_reg_other _ w hr]

/-- Byte registers lie in AX, CX, DX and BX (10_state.md R21). -/
theorem State.exchanged_byte_reg_rest :
    let t := s.exchanged .byte (.reg r) q
    t.gpr.sp = s.gpr.sp ∧ t.gpr.bp = s.gpr.bp ∧ t.gpr.si = s.gpr.si ∧ t.gpr.di = s.gpr.di := by
  simp [State.exchanged, State.setByteReg]

theorem State.exchanged_reg_eq :
    s.exchanged w (.reg r) q = { s with gpr := (s.exchanged w (.reg r) q).gpr } := by
  cases w <;> rfl

theorem State.exchanged_mem_eq :
    let t := s.exchanged w (.mem sg off) q
    t = { s with gpr := t.gpr, mem := t.mem, staleCode := t.staleCode } := by
  cases w <;> rfl

theorem State.exchanged_mem_sameBut : s.gpr.SameBut (s.exchanged w (.mem sg off) q).gpr w (.reg q) := by
  have hreg := State.write_sameBut (s.write w (.mem sg off) (s.read w (.reg q))) w (.reg q) (s.read w (.mem sg off))
  rwa [State.write_mem_gpr] at hreg

theorem State.exchanged_mem_sameOff :
    s.mem.SameOff (s.exchanged w (.mem sg off) q).mem ((Place.mem sg off).bytes w) := by
  rw [State.exchanged, State.write_reg_mem]
  exact s.write_sameOff w _ _

theorem State.exchanged_mem_remembers :
    s.Remembers (s.exchanged w (.mem sg off) q) ((Place.mem sg off).bytes w) := by
  rw [State.Remembers, State.exchanged, State.write_reg_staleCode]
  exact s.write_remembers w _ _

end

/-! ### PUSH -/

/-- PUSH of anything but register SP reads its operand before SP is lowered (40 R97). -/
theorem exec_pushRm_of_ne_sp {rm : RM} (h : rm ≠ .reg .spAh) (s : State) :
    exec (.pushRm rm) s = .next (s.push (s.read .word (s.place rm))) := by
  rcases rm with r | m
  · cases r with
    | spAh => exact absurd rfl h
    | _ => rfl
  · rfl

theorem exec_pushReg_of_ne_sp {reg : RegField} (h : reg ≠ .spAh) (s : State) :
    exec (.pushReg reg) s = .next (s.push (s.gpr.get reg)) := by
  cases reg with
  | spAh => exact absurd rfl h
  | _ => rfl

/-! ### LAHF -/

/-- The low byte of FLAGS (10_state.md R25, R27). -/
theorem Flags.loByte_image (f : Flags) : loByte f.image =
    BitVec.ofBool f.sf ++ BitVec.ofBool f.zf ++ 0#1 ++ BitVec.ofBool f.af ++ 0#1 ++ BitVec.ofBool f.pf ++ 1#1 ++
      BitVec.ofBool f.cf := by
  obtain ⟨h0, h1, h2, h3, h4, h5, h6, h7, -⟩ := f.image_bits
  apply BitVec.eq_of_getLsbD_eq
  intro k hk
  rw [loByte, BitVec.getLsbD_extractLsb', Nat.zero_add]
  interval_cases k <;> simp only [BitVec.getLsbD_append, *] <;> simp

/-! ### Ports -/

theorem portRefused_iff (p : Word) (w : Width) : portRefused p w = true ↔ p = 0xFFFF ∧ w = .word := by
  have hlast : p.toNat + 1 = Config.ioPorts ↔ p = 0xFFFF := by
    rw [show Config.ioPorts = 65536 from rfl]
    bv_omega
  simp only [portRefused, Bool.and_eq_true, beq_iff_eq, hlast]

/-- A port in the instruction is a byte, so that it is not the last port (40 R105). -/
theorem setWidth_ne_lastPort (port : Byte) : port.setWidth 16 ≠ (0xFFFF : Word) := by bv_omega

theorem exec_inVariable (w : Width) (s : State) :
    exec (.inVariable w) s = if portRefused s.gpr.dx w then .refused .wordPortFFFF else .next (s.inPort s.gpr.dx w) := rfl

theorem exec_outVariable (w : Width) (s : State) :
    exec (.outVariable w) s = if portRefused s.gpr.dx w then .refused .wordPortFFFF else .next (s.outPort s.gpr.dx w) := rfl

@[simp] theorem State.portTaken_gpr (s : State) : s.portTaken.gpr = s.gpr := by
  obtain ⟨n, h⟩ := s.portTaken_eq
  rw [h]

theorem State.portByte_of_cons {s : State} {b : Byte} {rest : List Byte} (h : s.portIn = b :: rest) :
    s.portByte = b := by
  simp only [State.portByte, h]

theorem State.portTaken_portIn_of_cons {s : State} {b : Byte} {rest : List Byte} (h : s.portIn = b :: rest) :
    s.portTaken.portIn = rest := by
  simp only [State.portTaken, h]

/-- IN of a byte: AL takes the next answer (20 R48). -/
theorem State.inPort_byte_gpr (s : State) (p : Word) :
    (s.inPort p .byte).gpr = s.gpr.setByte .axAl (s.logIo (.read p .byte)).portByte := by
  simp [State.inPort, accPlace, State.setByteReg]

/-- IN of a word: AX takes the next two answers, the low byte first (20 R48). -/
theorem State.inPort_word_gpr (s : State) (p : Word) :
    (s.inPort p .word).gpr = s.gpr.set .axAl
      ((s.logIo (.read p .word)).portTaken.portByte ++ (s.logIo (.read p .word)).portByte) := by
  simp [State.inPort, accPlace, State.setReg]

theorem State.inPort_sameBut (s : State) (p : Word) (w : Width) :
    s.gpr.SameBut (s.inPort p w).gpr w (.reg .axAl) := by
  cases w with
  | byte =>
    rw [s.inPort_byte_gpr]
    exact s.write_sameBut .byte (.reg .axAl) _
  | word =>
    rw [s.inPort_word_gpr]
    exact s.write_sameBut .word (.reg .axAl) _

theorem State.inPort_al {s : State} {lo : Byte} {rest : List Byte} (h : s.portIn = lo :: rest) (p : Word) (w : Width) :
    (s.inPort p w).gpr.getByte .axAl = lo := by
  have hlo (e : IoEvent) : (s.logIo e).portByte = lo := State.portByte_of_cons h
  cases w with
  | byte => rw [s.inPort_byte_gpr, Gpr.getByte_setByte_same, hlo]
  | word =>
    rw [s.inPort_word_gpr, hlo]
    exact loByte_append _ _

theorem State.inPort_ax {s : State} {lo hi : Byte} {rest : List Byte} (h : s.portIn = lo :: hi :: rest) (p : Word) :
    (s.inPort p .word).gpr.ax = hi ++ lo := by
  have hlo (e : IoEvent) : (s.logIo e).portByte = lo := State.portByte_of_cons h
  have hhi (e : IoEvent) : (s.logIo e).portTaken.portByte = hi :=
    State.portByte_of_cons (State.portTaken_portIn_of_cons (s := s.logIo e) h)
  rw [s.inPort_word_gpr, hlo, hhi]
  rfl

/-- IN in either form, with its port `p` (40 R105, R106). -/
theorem exec_in {s : State} {i : Instr} {w : Width} {p : Word}
    (hi : (∃ port : Byte, i = .inFixed w port ∧ p = port.setWidth 16) ∨ (i = .inVariable w ∧ p = s.gpr.dx)) :
    exec i s = if portRefused p w then .refused .wordPortFFFF else .next (s.inPort p w) := by
  rcases hi with ⟨port, rfl, rfl⟩ | ⟨rfl, rfl⟩
  · rw [if_neg fun h => setWidth_ne_lastPort port ((portRefused_iff _ w).mp h).1]
    rfl
  · exact exec_inVariable w s

/-! ### Loads of segment registers -/

theorem exec_movSregRm_of_ne_cs {sr : SReg} (h : sr ≠ .cs) (rm : RM) (s : State) :
    exec (.movSregRm sr rm) s = .next { s.setSreg sr (s.read .word (s.place rm)) with intInhibit := true } := by
  cases sr with
  | cs => exact absurd rfl h
  | es | ss | ds => rfl

theorem exec_popSreg_of_ne_cs {sr : SReg} (h : sr ≠ .cs) (s : State) :
    exec (.popSreg sr) s = .next { s.popped.setSreg sr s.top with intInhibit := true } := by
  cases sr with
  | cs => exact absurd rfl h
  | es | ss | ds => rfl

end Sys2Proof.Machine

open Sys2Proof Sys2Proof.Machine

/-- Settles O25: each form is one write of the value it reads. -/
theorem movCopiesSource : Obligations.MovCopiesSource := by
  intro s hs
  have hwrote := s.write_wroteOnly hs
  refine ⟨fun d w reg rm => ?_, fun rm imm => ⟨_, rfl, hwrote _ _ _⟩, fun reg imm => ⟨_, rfl, hwrote _ _ _⟩,
    fun w addr => ⟨_, rfl, hwrote _ _ _⟩, fun w addr => ⟨_, rfl, hwrote _ _ _⟩, fun sr rm => ⟨_, rfl, hwrote _ _ _⟩⟩
  cases d with
  | toReg => exact ⟨_, rfl, hwrote w (.reg reg) _⟩
  | fromReg => exact ⟨_, rfl, hwrote w (s.place rm) _⟩

/-- Settles O27: each form is one push; PUSH SP through FF /6 draws the free bit that chooses the SP. -/
theorem pushStoresWord : Obligations.PushStoresWord := by
  intro s hs
  have hpushed := s.push_pushedOnly hs
  refine ⟨fun rm h => ⟨_, exec_pushRm_of_ne_sp h s, hpushed _⟩, ⟨_, _, rfl, ?_, s.drawn.push_pushedOnly hs _⟩,
    fun reg h => ⟨_, exec_pushReg_of_ne_sp h s, hpushed _⟩, ⟨_, rfl, hpushed _⟩, fun sr => ⟨_, rfl, hpushed _⟩,
    ⟨_, rfl, hpushed _⟩⟩
  split
  · exact .inr rfl
  · exact .inl rfl

/-- Settles O28: the destination is written after SP is raised, its place computed before. -/
theorem popTakesWord : Obligations.PopTakesWord := fun s hs =>
  ⟨fun rm => ⟨_, rfl, s.popped.write_wroteOnly hs .word (s.place rm) s.top⟩, fun _ _ => rfl, rfl, rfl⟩

/-- Settles O29: both operands are read before either is written. -/
theorem xchgSwapsOperands : Obligations.XchgSwapsOperands := by
  intro s hs
  refine ⟨fun q => ⟨_, exec_xchgAccReg q s, s.exchanged_reg_eq .word .axAl q, s.exchanged_read_reg .word .axAl q hs,
      s.exchanged_read_right .word q hs (.reg .axAl), fun _ => s.exchanged_read_other .word .axAl q⟩,
    fun w q r => ⟨_, exec_xchgRmReg w q (.reg r) s, s.exchanged_reg_eq w r q, s.exchanged_read_reg w r q hs,
      s.exchanged_read_right w q hs (.reg r), fun _ => s.exchanged_read_other w r q, ?_⟩,
    fun w q m => ⟨_, exec_xchgRmReg w q (.mem m) s, s.exchanged_read_mem w q _ _ hs, s.exchanged_read_right w q hs _,
      s.exchanged_mem_sameBut w q _ _, s.exchanged_mem_sameOff w q _ _, s.exchanged_mem_remembers w q _ _,
      s.exchanged_mem_eq w q _ _⟩⟩
  rintro rfl
  exact s.exchanged_byte_reg_rest r q

/-- Settles O30: the port of the fixed form is never 0xFFFF; the accumulator takes the answers in their order. -/
theorem inTakesPortBytes : Obligations.InTakesPortBytes := by
  intro s i w p hi
  rw [exec_in hi, ← portRefused_iff]
  refine ⟨fun h => if_pos h, fun h => ⟨_, if_neg h, ?_, s.inPort_sameBut p w, fun lo rest hin => State.inPort_al hin p w, ?_⟩⟩
  · obtain ⟨g, n, heq⟩ := s.inPort_eq p w
    rw [heq]
  · rintro rfl lo high rest hin
    exact State.inPort_ax hin p

/-- Settles O4: each of the words is the encoding of its instruction. -/
theorem sampleWordsDecode : Obligations.SampleWordsDecode := by
  refine ⟨?_, ?_, ?_, ?_, ?_, ?_, ?_, ?_, ?_, ?_⟩ <;> exact decode_of_encode_eq rfl (by decide)

/-- Settles O26: only CS is refused. -/
theorem segmentRegisterLoads : Obligations.SegmentRegisterLoads := fun s =>
  ⟨fun _ rm h => exec_movSregRm_of_ne_cs h rm s, fun _ h => exec_popSreg_of_ne_cs h s, fun _ => rfl, rfl⟩

/-- Settles O31: the port of the fixed form is never 0xFFFF; the variable form refuses exactly the word there. -/
theorem outRecordsAccumulator : Obligations.OutRecordsAccumulator := by
  intro s
  have hword (p : Word) : s.outPort p .word = { s with io := s.io ++ [.write p .word s.gpr.ax] } := by
    simp [State.outPort, State.logIo, State.read, accPlace]
  have hbyte : ¬ portRefused s.gpr.dx .byte = true := fun h => by simpa using (portRefused_iff _ _).mp h
  refine ⟨fun _ => rfl, fun port => congrArg Host.Outcome.next (hword _), ?_, fun h => ?_, fun h => ?_⟩
  · rw [exec_outVariable, if_neg hbyte]
    rfl
  · rw [exec_outVariable, if_neg fun hrefused => h ((portRefused_iff _ _).mp hrefused).1, hword]
  · rw [exec_outVariable, if_pos ((portRefused_iff _ _).mpr ⟨h, rfl⟩)]

/-- Settles O32: each meaning is written so, but for the width of AL in XLAT's sum. -/
theorem addressLoadsEffects : Obligations.AddressLoadsEffects := by
  refine fun s => ⟨?_, fun _ _ => rfl, fun _ _ => rfl, fun _ _ => rfl⟩
  rw [BitVec.ofNat_toNat]
  rfl

/-- Settles O33: LAHF takes the low byte of the FLAGS image, SAHF reads back its flag bits. -/
theorem lahfSahfMoveFlags : Obligations.LahfSahfMoveFlags := by
  refine fun s => ⟨?_, rfl⟩
  rw [← Flags.loByte_image]
  rfl
end

section
/-! PROOFS. Sums and differences (00_scope.md R8, 41_arithmetic.md R117): `add_n` and `sub_n` as arithmetic on integers, and
ADD, ADC, SUB, SBB, CMP, INC, DEC, NEG read off it. -/

namespace Sys2Proof

theorem Width.bits_pos (w : Width) : 0 < w.bits := by cases w <;> decide

end Sys2Proof

namespace Sys2Proof.Machine

/-! ### Words as integers -/

theorem ofInt_toNat {n : Nat} (a : BitVec n) : BitVec.ofInt n a.toNat = a := by
  rw [BitVec.ofInt_natCast, BitVec.ofNat_toNat, BitVec.setWidth_eq]

/-- `r` is the sum of `x` and `y` unless the sum does not fit; then both addends have one sign and `r` has the other. -/
def SumUnlessOverflow (x y r : Int) : Prop :=
  r = x + y ∨ (r ≠ x + y ∧ x < 0 ∧ y < 0 ∧ 0 ≤ r) ∨ (r ≠ x + y ∧ 0 ≤ x ∧ 0 < y ∧ r < 0)

theorem toInt_ofInt_add {n : Nat} (hn : 0 < n) (a : BitVec n) {y : Int} (hlo : -2 ^ (n - 1) ≤ y)
    (hhi : y ≤ 2 ^ (n - 1)) : SumUnlessOverflow a.toInt y (BitVec.ofInt n (a.toInt + y)).toInt := by
  generalize hreq : BitVec.ofInt n (a.toInt + y) = r
  have hpow : (2 : Int) ^ n = 2 * 2 ^ (n - 1) := by rw [← pow_succ', Nat.sub_add_cancel hn]
  obtain ⟨k, hk⟩ : (2 ^ n : Int) ∣ a.toInt + y - r.toInt := by
    rw [← hreq, BitVec.toInt_ofInt, show (2 ^ n : Int) = (2 ^ n : Nat) by norm_cast]
    exact Int.dvd_self_sub_bmod
  have ha := a.le_toInt
  have ha' := a.toInt_lt
  have hr := r.le_toInt
  have hr' := r.toInt_lt
  have hk1 : k < 2 := by nlinarith
  have hk2 : -2 < k := by nlinarith
  rw [SumUnlessOverflow]
  obtain rfl | rfl | rfl : k = 0 ∨ k = 1 ∨ k = -1 := by omega
  all_goals omega

/-! ### `add_n` and `sub_n` -/

section

variable {n : Nat} (a b : BitVec n) (c : Bool)

theorem addN_res : (addN a b c).res = BitVec.ofInt n (a.toInt + (b.toInt + c.toNat)) := by
  rw [BitVec.ofInt_add, BitVec.ofInt_add, BitVec.ofInt_toInt, BitVec.ofInt_toInt, BitVec.ofInt_natCast, addN,
    BitVec.ofNat_add, BitVec.ofNat_add, BitVec.ofNat_toNat, BitVec.ofNat_toNat, BitVec.setWidth_eq, BitVec.setWidth_eq,
    BitVec.add_assoc]

theorem subN_res : (subN a b c).res = BitVec.ofInt n (a.toInt - b.toInt - c.toNat) := by
  simp only [subN, sub_eq_add_neg, BitVec.ofInt_add, BitVec.ofInt_neg, BitVec.ofInt_toInt, ofInt_toNat]

theorem subN_res_false : (subN a b false).res = a - b := by
  rw [subN_res, Bool.toNat_false, Nat.cast_zero, sub_zero, sub_eq_add_neg, BitVec.ofInt_add, BitVec.ofInt_neg,
    BitVec.ofInt_toInt, BitVec.ofInt_toInt, BitVec.sub_eq_add_neg]

theorem addN_sumUnlessOverflow (hn : 0 < n) :
    SumUnlessOverflow a.toInt (b.toInt + c.toNat) (addN a b c).res.toInt := by
  have hc := c.toNat_lt
  have hb := b.le_toInt
  have hb' := b.toInt_lt
  rw [addN_res]
  exact toInt_ofInt_add hn a (by omega) (by omega)

theorem subN_sumUnlessOverflow (hn : 0 < n) :
    SumUnlessOverflow a.toInt (-(b.toInt + c.toNat)) (subN a b c).res.toInt := by
  have hc := c.toNat_lt
  have hb := b.le_toInt
  have hb' := b.toInt_lt
  rw [subN_res, sub_sub, sub_eq_add_neg]
  exact toInt_ofInt_add hn a (by omega) (by omega)

/-- OF of an addition says that the signed sum does not fit (00 R8). -/
theorem addN_of (hn : 0 < n) : (addN a b c).of = decide ((addN a b c).res.toInt ≠ a.toInt + b.toInt + c.toNat) := by
  have hcases := addN_sumUnlessOverflow a b c hn
  rw [SumUnlessOverflow] at hcases
  have hc := c.toNat_lt
  have hof : (addN a b c).of = (a.msb == b.msb && (addN a b c).res.msb != a.msb) := rfl
  rw [hof, Bool.eq_iff_iff]
  simp only [BitVec.msb_eq_toInt, Bool.and_eq_true, bne_iff_ne, beq_iff_eq, ne_eq, decide_eq_decide, decide_eq_true_eq]
  omega

/-- OF of a subtraction says that the signed difference does not fit (00 R8). -/
theorem subN_of (hn : 0 < n) : (subN a b c).of = decide ((subN a b c).res.toInt ≠ a.toInt - b.toInt - c.toNat) := by
  have hcases := subN_sumUnlessOverflow a b c hn
  rw [SumUnlessOverflow] at hcases
  have hc := c.toNat_lt
  have hof : (subN a b c).of = (a.msb != b.msb && (subN a b c).res.msb != a.msb) := rfl
  rw [hof, Bool.eq_iff_iff]
  simp only [BitVec.msb_eq_toInt, Bool.and_eq_true, bne_iff_ne, ne_eq, decide_eq_decide, decide_eq_true_eq]
  omega

/-- The flags after an addition (41 R117). -/
theorem Flags.setSum_addN (hn : 0 < n) (f : Flags) : f.setSum (addN a b c) =
    let r := (addN a b c).res
    { f with
      of := decide (r.toInt ≠ a.toInt + b.toInt + c.toNat)
      sf := decide (r.toInt < 0)
      zf := decide (r = 0)
      af := decide (16 ≤ a.toNat % 16 + b.toNat % 16 + c.toNat)
      pf := parity8 r
      cf := decide (2 ^ n ≤ a.toNat + b.toNat + c.toNat) } := by
  simp only [← addN_of a b c hn, ← BitVec.msb_eq_toInt]
  rfl

/-- The flags after a subtraction (41 R117). -/
theorem Flags.afterSub_subN (hn : 0 < n) (f : Flags) :
    f.AfterSub (f.setSum (subN a b c)) a b (subN a b c).res c := by
  rw [Flags.AfterSub, ← subN_of a b c hn, ← BitVec.msb_eq_toInt]
  rfl

/-- INC and DEC write the flags of the sum or difference but for CF (41 R122, R127). -/
theorem Flags.setSumKeepCf_eq (f : Flags) (x : Sum n) : f.setSumKeepCf x = { f.setSum x with cf := f.cf } := rfl

end

/-! ### The two-operand operations -/

theorem State.binaryRmReg_eq (s : State) (op : BinOp) (d : Dir) (w : Width) (reg : RegField) (rm : RM) :
    s.binaryRmReg op d w reg rm = s.binary op w (s.rmrDst d reg rm) (s.read w (s.rmrSrc d reg rm)) := by
  cases d <;> rfl

/-- 30_encoding.md R67, R68. -/
theorem immediateValues : ImmediateValues :=
  ⟨fun _ => rfl, fun _ => rfl, fun _ => rfl, fun _ => rfl, fun _ => rfl, fun _ => rfl⟩

section

variable (s : State) (hs : s.mem.wf = true) (w : Width) (p : Place) (b : BitVec w.bits)

include hs

theorem State.binary_add_added : s.Added (s.binary .add w p b) w p b false :=
  ⟨s.binary_wrote hs .add w p b rfl, s.binary_freeCount .add w p b,
    (s.binary_flags .add w p b).trans (Flags.setSum_addN _ b false w.bits_pos _)⟩

theorem State.binary_adc_added : s.Added (s.binary .adc w p b) w p b s.flags.cf :=
  ⟨s.binary_wrote hs .adc w p b rfl, s.binary_freeCount .adc w p b,
    (s.binary_flags .adc w p b).trans (Flags.setSum_addN _ b s.flags.cf w.bits_pos _)⟩

theorem State.binary_sub_subtracted : s.Subtracted (s.binary .sub w p b) w p b false := by
  rw [State.Subtracted, ← subN_res, s.binary_flags]
  exact ⟨s.binary_wrote hs .sub w p b rfl, s.binary_freeCount .sub w p b, Flags.afterSub_subN _ b false w.bits_pos _⟩

theorem State.binary_sbb_subtracted : s.Subtracted (s.binary .sbb w p b) w p b s.flags.cf := by
  rw [State.Subtracted, ← subN_res, s.binary_flags]
  exact ⟨s.binary_wrote hs .sbb w p b rfl, s.binary_freeCount .sbb w p b,
    Flags.afterSub_subN _ b s.flags.cf w.bits_pos _⟩

end

/-! ### CMP -/

theorem State.binary_cmp_eq (s : State) (w : Width) (p : Place) (b : BitVec w.bits) :
    s.binary .cmp w p b = { s with flags := s.flags.setSum (subN (s.read w p) b false) } :=
  s.binary_noWrite .cmp w p b rfl

theorem State.binary_cmp_compared (s : State) (w : Width) (p : Place) (b : BitVec w.bits) :
    s.Compared (s.binary .cmp w p b) (s.read w p) b := by
  have hsub := Flags.afterSub_subN (s.read w p) b false w.bits_pos s.flags
  rw [subN_res, Bool.toNat_false, Nat.cast_zero, sub_zero] at hsub
  rw [s.binary_cmp_eq]
  exact ⟨hsub, rfl⟩

section

variable {n : Nat} (a b : BitVec n) (f : Flags)

/-- After a comparison ZF says equal (44_control_transfer.md R184). -/
theorem Flags.setSum_subN_zf : (f.setSum (subN a b false)).zf = true ↔ a = b := by
  have hzf : (f.setSum (subN a b false)).zf = ((subN a b false).res == 0) := rfl
  rw [hzf, subN_res_false, beq_iff_eq]
  exact sub_eq_zero

/-- CF says below (44 R184). -/
theorem Flags.setSum_subN_cf : (f.setSum (subN a b false)).cf = true ↔ a.toNat < b.toNat := decide_eq_true_iff

/-- SF different from OF says less (44 R184). -/
theorem Flags.setSum_subN_sf_ne_of (hn : 0 < n) :
    (f.setSum (subN a b false)).sf ≠ (f.setSum (subN a b false)).of ↔ a.toInt < b.toInt := by
  have hcases := subN_sumUnlessOverflow a b false hn
  rw [SumUnlessOverflow] at hcases
  have hsf : (f.setSum (subN a b false)).sf = (subN a b false).res.msb := rfl
  have hof : (f.setSum (subN a b false)).of = (subN a b false).of := rfl
  rw [hsf, hof, subN_of a b false hn, BitVec.msb_eq_toInt, ne_eq, decide_eq_decide]
  simp only [Bool.toNat_false] at *
  omega

end

/-! ### INC, DEC, NEG -/

theorem Width.one_toInt (w : Width) : (1 : BitVec w.bits).toInt = 1 := by cases w <;> rfl

theorem Width.one_toNat_mod (w : Width) : (1 : BitVec w.bits).toNat % 16 = 1 := by cases w <;> rfl

theorem addN_one_res {n : Nat} (a : BitVec n) : (addN a 1 false).res = a + 1 := by
  rw [addN_res, Bool.toNat_false, Nat.cast_zero, add_zero, BitVec.ofInt_add, BitVec.ofInt_toInt, BitVec.ofInt_toInt]

/-- The flags of INC (41 R122). -/
theorem State.incDec_up_flags (s : State) (w : Width) (p : Place) : (s.incDec true w p).flags = { s.flags with
    of := decide ((s.read w p + 1).toInt ≠ (s.read w p).toInt + 1)
    sf := decide ((s.read w p + 1).toInt < 0), zf := decide (s.read w p + 1 = 0)
    af := decide ((s.read w p).toNat % 16 = 15), pf := parity8 (s.read w p + 1) } := by
  have haf : 16 ≤ (s.read w p).toNat % 16 + 1 ↔ (s.read w p).toNat % 16 = 15 := by omega
  rw [State.incDec, State.write_flags, State.setFlags_flags, if_pos rfl, Flags.setSumKeepCf_eq,
    Flags.setSum_addN _ _ _ w.bits_pos]
  simp only [addN_one_res, Width.one_toInt, Width.one_toNat_mod, Bool.toNat_false, Nat.cast_zero, add_zero, haf]

/-- The flags of DEC (41 R127). -/
theorem State.incDec_down_flags (s : State) (w : Width) (p : Place) : (s.incDec false w p).flags = { s.flags with
    of := decide ((s.read w p - 1).toInt ≠ (s.read w p).toInt - 1)
    sf := decide ((s.read w p - 1).toInt < 0), zf := decide (s.read w p - 1 = 0)
    af := decide ((s.read w p).toNat % 16 = 0), pf := parity8 (s.read w p - 1) } := by
  have haf : (s.read w p).toNat % 16 < 1 ↔ (s.read w p).toNat % 16 = 0 := Nat.lt_one_iff
  rw [State.incDec, State.write_flags, State.setFlags_flags, if_neg Bool.false_ne_true, Flags.setSumKeepCf_eq,
    Flags.afterSub_subN _ _ _ w.bits_pos]
  simp only [subN_res_false, Width.one_toInt, Width.one_toNat_mod, Bool.toNat_false, Nat.cast_zero, add_zero, sub_zero, haf]

theorem subN_zero_res {n : Nat} (a : BitVec n) : (subN 0 a false).res = -a := (subN_res_false 0 a).trans (zero_sub a)

/-- Only the most negative number has no negative (41 R128). -/
theorem toInt_neg_ne_iff {n : Nat} (hn : 0 < n) (a : BitVec n) : (-a).toInt ≠ -a.toInt ↔ a = BitVec.intMin n := by
  rw [BitVec.toInt_neg_eq_ite]
  split
  case isTrue h =>
    have hmin : a.toInt < 0 := by
      rw [h, BitVec.toInt_intMin_of_pos hn]
      exact neg_lt_zero.mpr (by positivity)
    exact iff_of_true (by omega) h
  case isFalse h => exact iff_of_false (not_not.mpr rfl) h

/-- The flags of NEG (41 R128). -/
theorem Flags.setSum_neg {n : Nat} (hn : 0 < n) (f : Flags) (a : BitVec n) : f.setSum (subN 0 a false) = { f with
    of := decide (a = BitVec.intMin n), sf := decide ((-a).toInt < 0), zf := decide (a = 0)
    af := decide (a.toNat % 16 ≠ 0), pf := parity8 (-a), cf := decide (a ≠ 0) } := by
  have hne : 0 < a.toNat ↔ a ≠ 0 := by
    simp [Nat.pos_iff_ne_zero, ← BitVec.toNat_inj]
  rw [Flags.afterSub_subN _ _ _ hn, subN_zero_res]
  simp only [← toInt_neg_ne_iff hn, ← hne]
  simp [Nat.pos_iff_ne_zero]

theorem exec_neg (w : Width) (rm : RM) (s : State) : exec (.neg w rm) s =
    .next ((s.setFlags (s.flags.setSum (subN 0 (s.read w (s.place rm)) false))).write w (s.place rm)
      (-s.read w (s.place rm))) := by
  rw [← subN_zero_res]
  rfl

end Sys2Proof.Machine

open Sys2Proof Sys2Proof.Machine

/-- Settles O34: each form is one addition on its destination place. -/
theorem addAdcSumAndFlags : Obligations.AddAdcSumAndFlags := by
  refine ⟨immediateValues, fun s hs => ?_⟩
  have hadd := s.binary_add_added hs
  have hadc := s.binary_adc_added hs
  exact ⟨fun d w reg rm => ⟨_, congrArg Host.Outcome.next (s.binaryRmReg_eq .add d w reg rm), hadd w _ _⟩,
    fun _ _ => ⟨_, rfl, hadd _ _ _⟩, fun _ => ⟨_, rfl, hadd _ _ _⟩,
    fun d w reg rm => ⟨_, congrArg Host.Outcome.next (s.binaryRmReg_eq .adc d w reg rm), hadc w _ _⟩,
    fun _ _ => ⟨_, rfl, hadc _ _ _⟩, fun _ => ⟨_, rfl, hadc _ _ _⟩⟩

/-- Settles O35: each form is one subtraction on its destination place. -/
theorem subSbbDifferenceAndFlags : Obligations.SubSbbDifferenceAndFlags := by
  refine ⟨immediateValues, fun s hs => ?_⟩
  have hsub := s.binary_sub_subtracted hs
  have hsbb := s.binary_sbb_subtracted hs
  exact ⟨fun d w reg rm => ⟨_, congrArg Host.Outcome.next (s.binaryRmReg_eq .sub d w reg rm), hsub w _ _⟩,
    fun _ _ => ⟨_, rfl, hsub _ _ _⟩, fun _ => ⟨_, rfl, hsub _ _ _⟩,
    fun d w reg rm => ⟨_, congrArg Host.Outcome.next (s.binaryRmReg_eq .sbb d w reg rm), hsbb w _ _⟩,
    fun _ _ => ⟨_, rfl, hsbb _ _ _⟩, fun _ => ⟨_, rfl, hsbb _ _ _⟩⟩

/-- Settles O36: a comparison is a subtraction whose difference is dropped. -/
theorem cmpWritesFlagsOnly : Obligations.CmpWritesFlagsOnly := by
  refine ⟨immediateValues, fun s => ⟨fun d w reg rm => ?_, fun _ _ => ⟨_, rfl, s.binary_cmp_compared _ _ _⟩,
    fun _ => ⟨_, rfl, s.binary_cmp_compared _ _ _⟩⟩⟩
  refine ⟨_, congrArg Host.Outcome.next (s.binaryRmReg_eq .cmp d w reg rm), s.binary_cmp_compared w _ _, ?_⟩
  rw [s.binary_cmp_eq]
  exact ⟨Flags.setSum_subN_zf _ _ _, Flags.setSum_subN_cf _ _ _, Flags.setSum_subN_sf_ne_of _ _ _ w.bits_pos⟩

/-- Settles O37: INC adds 1, DEC subtracts 1, NEG subtracts from 0. -/
theorem incDecNegResultAndFlags : Obligations.IncDecNegResultAndFlags := by
  intro s hs i w p
  refine ⟨fun hi => ?_, fun hi => ?_, ?_⟩
  · have hexec : exec i s = .next (s.incDec true w p) := by
      rcases hi with ⟨rm, rfl, rfl⟩ | ⟨reg, rfl, rfl, rfl⟩ <;> rfl
    have hwrote := s.incDec_wrote hs true w p
    rw [if_pos rfl, addN_one_res] at hwrote
    exact ⟨_, hexec, hwrote, State.write_freeCount _ w p _, s.incDec_up_flags w p⟩
  · have hexec : exec i s = .next (s.incDec false w p) := by
      rcases hi with ⟨rm, rfl, rfl⟩ | ⟨reg, rfl, rfl, rfl⟩ <;> rfl
    have hwrote := s.incDec_wrote hs false w p
    rw [if_neg Bool.false_ne_true, subN_res_false] at hwrote
    exact ⟨_, hexec, hwrote, State.write_freeCount _ w p _, s.incDec_down_flags w p⟩
  · rintro ⟨rm, rfl, rfl⟩
    have hwrote := State.write_wrote (s.setFlags (s.flags.setSum (subN 0 (s.read w (s.place rm)) false))) hs w
    exact ⟨_, exec_neg w rm s, (hwrote _ _).of_flags rfl rfl rfl (s.setFlags_sameElse _), State.write_freeCount _ w _ _,
      (State.write_flags _ w _ _).trans (s.flags.setSum_neg w.bits_pos _)⟩
end

section
/-! PROOFS. Decimal and ASCII adjusts (41_arithmetic.md R119, R123, R124, R130, R131). -/

namespace Sys2Proof.Machine

/-! ### AL and AH together -/

/-- AL and AH are the two halves of AX (10_state.md R21). -/
theorem Gpr.setByte_al_ah (g : Gpr) (lo hi : Byte) :
    (g.setByte .axAl lo).setByte .spAh hi = { g with ax := hi ++ lo } := by
  simp [Gpr.setByte]

theorem Gpr.setByte_ah_al (g : Gpr) (lo hi : Byte) :
    (g.setByte .spAh hi).setByte .axAl lo = { g with ax := hi ++ lo } := by
  simp [Gpr.setByte]

theorem Gpr.getByte_al (g : Gpr) : g.getByte .axAl = loByte g.ax := rfl

theorem Gpr.getByte_ah (g : Gpr) : g.getByte .spAh = hiByte g.ax := rfl

theorem State.setAl_setAh (s : State) (f : Flags) (lo hi : Byte) :
    ((s.drawn.setFlags f).setByteReg .axAl lo).setByteReg .spAh hi =
      { s with gpr := { s.gpr with ax := hi ++ lo }, flags := f, freeCount := s.freeCount + 1 } :=
  congrArg (s.drawn.setFlags f).setGpr (s.gpr.setByte_al_ah lo hi)

theorem State.setAh_setAl (s : State) (f : Flags) (lo hi : Byte) :
    ((s.drawn.setFlags f).setByteReg .spAh hi).setByteReg .axAl lo =
      { s with gpr := { s.gpr with ax := hi ++ lo }, flags := f, freeCount := s.freeCount + 1 } :=
  congrArg (s.drawn.setFlags f).setGpr (s.gpr.setByte_ah_al lo hi)

/-! ### Corrections -/

/-- When AAA and AAS adjust, and when DAA and DAS make their first correction (41 R123, R124, R130, R131). -/
def State.adjustsLow (s : State) : Bool := decide (9 < s.al.toNat % 16) || s.flags.af

/-- When DAA and DAS make their second correction (41 R124, R131). -/
def State.adjustsHigh (s : State) : Bool := decide (0x99 < s.al.toNat) || s.flags.cf

theorem toNat_ite_add (c : Bool) (a x : Byte) :
    (if c then a + x else a).toNat = (a.toNat + if c then x.toNat else 0) % 256 := by
  cases c with
  | false => exact (Nat.mod_eq_of_lt a.isLt).symm
  | true => exact BitVec.toNat_add a x

/-- The low digit of a byte that is corrected or not (41 R123, R130). -/
theorem toNat_ite_add_nibble (c : Bool) (a x : Byte) :
    ((if c then a + x else a) &&& 0x0F).toNat = (if c then a.toNat + x.toNat else a.toNat) % 16 := by
  have hnibble (v : Byte) : (v &&& 0x0F).toNat = v.toNat % 16 :=
    (BitVec.toNat_and v 0x0F).trans (Nat.and_two_pow_sub_one_eq_mod v.toNat 4)
  rw [hnibble, toNat_ite_add, Nat.mod_mod_of_dvd _ (by decide)]
  cases c <;> rfl

/-- Two corrections, each made or not (41 R124, R131). -/
theorem toNat_ite_add_ite_add (c d : Bool) (a x y : Byte) :
    (if d then (if c then a + x else a) + y else if c then a + x else a).toNat =
      (a.toNat + (if c then x.toNat else 0) + if d then y.toNat else 0) % 256 := by
  rw [toNat_ite_add, toNat_ite_add, Nat.mod_add_mod]

/-! ### AAA and AAS -/

/-- AAA (41 R123). -/
theorem exec_aaa (s : State) : exec .aaa s = .next { s with
    gpr := { s.gpr with
      ax := (if s.adjustsLow then s.ah + 1 else s.ah) ++ ((if s.adjustsLow then s.al + 6 else s.al) &&& 0x0F) }
    flags := s.flags.setAscii s.freeFlags s.adjustsLow
    freeCount := s.freeCount + 1 } :=
  congrArg Host.Outcome.next (s.setAl_setAh _ _ _)

/-- AAS (41 R130). -/
theorem exec_aas (s : State) : exec .aas s = .next { s with
    gpr := { s.gpr with
      ax := (if s.adjustsLow then s.ah - 1 else s.ah) ++ ((if s.adjustsLow then s.al - 6 else s.al) &&& 0x0F) }
    flags := s.flags.setAscii s.freeFlags s.adjustsLow
    freeCount := s.freeCount + 1 } :=
  congrArg Host.Outcome.next (s.setAl_setAh _ _ _)

/-! ### DAA and DAS -/

/-- AL after DAA (41 R124). -/
def State.daaAl (s : State) : Byte :=
  if s.adjustsHigh then (if s.adjustsLow then s.al + 6 else s.al) + 0x60 else if s.adjustsLow then s.al + 6 else s.al

/-- AL after DAS (41 R131). -/
def State.dasAl (s : State) : Byte :=
  if s.adjustsHigh then (if s.adjustsLow then s.al - 6 else s.al) - 0x60 else if s.adjustsLow then s.al - 6 else s.al

theorem exec_daa (s : State) : exec .daa s = .next
    ((s.drawn.setFlags (s.flags.setDecimal s.freeFlags s.daaAl s.adjustsLow s.adjustsHigh)).setByteReg .axAl s.daaAl) :=
  rfl

theorem exec_das (s : State) : exec .das s = .next
    ((s.drawn.setFlags (s.flags.setDecimal s.freeFlags s.dasAl s.adjustsLow
      (s.adjustsHigh || (s.adjustsLow && (s.flags.cf || decide (s.al.toNat < 6)))))).setByteReg .axAl s.dasAl) :=
  rfl

/-- CF after DAS: where the old CF is set the second correction sets it already (41 R131). -/
theorem State.das_cf (s : State) : (s.adjustsHigh || (s.adjustsLow && (s.flags.cf || decide (s.al.toNat < 6)))) =
    (s.adjustsHigh || (s.adjustsLow && decide (s.al.toNat < 6))) := by
  cases hcf : s.flags.cf with
  | false => rw [Bool.false_or]
  | true => simp [State.adjustsHigh, hcf]

/-- What DAA and DAS leave: AL and the flags that go with it. -/
theorem State.setDecimal_setAl (s : State) (r : Byte) (af cf : Bool) :
    let t := (s.drawn.setFlags (s.flags.setDecimal s.freeFlags r af cf)).setByteReg .axAl r
    t = { s with gpr := s.gpr.setByte .axAl (t.gpr.getByte .axAl), flags := t.flags, freeCount := t.freeCount } ∧
      t.gpr.getByte .axAl = r ∧
      t.flags = { s.flags with
        of := t.flags.of, sf := (t.gpr.getByte .axAl).msb, zf := decide (t.gpr.getByte .axAl = 0), af := af
        pf := parity8 (t.gpr.getByte .axAl), cf := cf } := by
  intro t
  have hal : t.gpr.getByte .axAl = r := s.gpr.getByte_setByte_same .axAl r
  rw [hal]
  exact ⟨rfl, rfl, rfl⟩

/-! ### Packed decimal sums -/

section

variable {a b c d k : Nat}

/-- The first correction is made where the units carry. -/
theorem packed_low_iff (hb : b < 10) (hd : d < 10) (hk : k ≤ 1) :
    (9 < (16 * a + b + (16 * c + d) + k) % 256 % 16 ∨ 15 < b + d + k) ↔ 10 ≤ b + d + k := by
  omega

/-- The second correction is made where the tens carry. -/
theorem packed_high_iff (ha : a < 10) (hb : b < 10) (hc : c < 10) (hd : d < 10) (hk : k ≤ 1) :
    (0x99 < (16 * a + b + (16 * c + d) + k) % 256 ∨ 256 ≤ 16 * a + b + (16 * c + d) + k) ↔
      100 ≤ 10 * a + b + (10 * c + d) + k := by
  omega

/-- The two corrections turn the sum of the packed bytes into the packed sum (41 R119). -/
theorem packed_corrected (ha : a < 10) (hb : b < 10) (hc : c < 10) (hd : d < 10) (hk : k ≤ 1) :
    ((16 * a + b + (16 * c + d) + k) % 256 + (if 10 ≤ b + d + k then 6 else 0) +
      if 100 ≤ 10 * a + b + (10 * c + d) + k then 0x60 else 0) % 256 =
    16 * ((10 * a + b + (10 * c + d) + k) / 10 % 10) + (10 * a + b + (10 * c + d) + k) % 10 := by
  split <;> split <;> omega

end

/-- ADC AL, imm8 (41 R121). -/
theorem exec_adc_al (s : State) (v : Byte) : ∃ t, exec (.adcAccImm (.byte v)) s = .next t ∧
    (t.gpr.getByte .axAl).toNat = (s.al.toNat + v.toNat + s.flags.cf.toNat) % 256 ∧
    t.flags.af = decide (15 < s.al.toNat % 16 + v.toNat % 16 + s.flags.cf.toNat) ∧
    t.flags.cf = decide (256 ≤ s.al.toNat + v.toNat + s.flags.cf.toNat) :=
  ⟨_, rfl, congrArg BitVec.toNat (s.gpr.getByte_setByte_same .axAl _), rfl, rfl⟩

theorem toNat_packed {a b : Nat} (ha : a < 10) (hb : b < 10) : (BitVec.ofNat 8 (16 * a + b)).toNat = 16 * a + b :=
  Nat.mod_eq_of_lt (by omega)

theorem packed_mod {a b : Nat} (hb : b < 10) : (16 * a + b) % 16 = b := by omega

end Sys2Proof.Machine

open Sys2Proof Sys2Proof.Machine

/-- Settles O38: AX is the adjusted AH over the low digit of the adjusted AL. -/
theorem asciiAdjustResults : Obligations.AsciiAdjustResults := by
  refine fun s => ⟨⟨_, exec_aaa s, rfl, ?_, ?_, rfl⟩, ⟨_, exec_aas s, rfl, ?_, ?_, rfl⟩⟩
  · rw [Gpr.getByte_al, loByte_append]
    exact toNat_ite_add_nibble s.adjustsLow s.al 6
  · rw [Gpr.getByte_ah, hiByte_append]
    rfl
  · rw [Gpr.getByte_al, loByte_append, BitVec.sub_eq_add_neg]
    exact toNat_ite_add_nibble s.adjustsLow s.al (-6)
  · rw [Gpr.getByte_ah, hiByte_append]
    rfl

/-- Settles O39: the low correction and the high one, each decided by the old state. -/
theorem decimalAdjustResults : Obligations.DecimalAdjustResults := by
  intro s
  obtain ⟨hdaa, hdaaAl, hdaaFlags⟩ := s.setDecimal_setAl s.daaAl s.adjustsLow s.adjustsHigh
  obtain ⟨hdas, hdasAl, hdasFlags⟩ := s.setDecimal_setAl s.dasAl s.adjustsLow
    (s.adjustsHigh || (s.adjustsLow && (s.flags.cf || decide (s.al.toNat < 6))))
  refine ⟨⟨_, exec_daa s, hdaa, ?_, hdaaFlags⟩, ⟨_, exec_das s, hdas, ?_, ?_⟩⟩
  · rw [hdaaAl]
    exact toNat_ite_add_ite_add s.adjustsLow s.adjustsHigh s.al 6 0x60
  · rw [hdasAl, State.dasAl, BitVec.sub_eq_add_neg, BitVec.sub_eq_add_neg]
    exact toNat_ite_add_ite_add s.adjustsLow s.adjustsHigh s.al (-6) (-0x60)
  · refine hdasFlags.trans ?_
    rw [s.das_cf]
    rfl

/-- Settles O40: the corrections DAA makes to the binary sum are the carries of the decimal one. -/
theorem daaCorrectsPackedSums : Obligations.DaaCorrectsPackedSums := by
  intro s a b c d ha hb hc hd hal
  have hk := s.flags.cf.toNat_le
  obtain ⟨t, ht, htAl, htAf, htCf⟩ := exec_adc_al s (BitVec.ofNat 8 (16 * c + d))
  rw [show s.al = _ from hal, toNat_packed ha hb, toNat_packed hc hd] at htAl htAf htCf
  rw [packed_mod hb, packed_mod hd] at htAf
  obtain ⟨⟨u, hu, -, huAl, huFlags⟩, -⟩ := decimalAdjustResults t
  rw [htAl, htAf, htCf, ← Bool.decide_or, ← Bool.decide_or] at huAl huFlags
  simp only [packed_low_iff hb hd hk, packed_high_iff ha hb hc hd hk, decide_eq_true_eq] at huAl huFlags
  refine ⟨t, u, ht, hu, huAl.trans (packed_corrected ha hb hc hd hk), ?_⟩
  rw [huFlags]
end

section
/-! PROOFS. Products, quotients, the bases and the sign extensions (41_arithmetic.md R118, R132 to R139), and what an
interrupt is (60_exceptions.md R233). -/

namespace Sys2Proof.Machine

/-! ### Double words -/

theorem toNat_append_eq_add {m n : Nat} (x : BitVec m) (y : BitVec n) : (x ++ y).toNat = x.toNat * 2 ^ n + y.toNat := by
  rw [BitVec.toNat_append, ← Nat.shiftLeft_add_eq_or_of_lt y.isLt, Nat.shiftLeft_eq]

theorem toInt_word_append (x y : Word) : (x ++ y).toInt = x.toInt * 2 ^ 16 + y.toNat := by
  rw [BitVec.toInt_append, if_neg (by decide), Int.mul_comm]

/-- DX:AX holds a double word as its two halves (41 R132, R133). -/
theorem append_halves (v : BitVec 32) : v.extractLsb' 16 16 ++ v.extractLsb' 0 16 = v := by
  rw [BitVec.extractLsb'_append_extractLsb'_eq_extractLsb' (by decide)]
  exact BitVec.extractLsb'_eq_self

theorem toNat_halves (v : BitVec 32) : (v.extractLsb' 16 16).toNat * 2 ^ 16 + (v.extractLsb' 0 16).toNat = v.toNat := by
  rw [← toNat_append_eq_add, append_halves]

theorem toInt_halves (v : BitVec 32) : (v.extractLsb' 16 16).toInt * 2 ^ 16 + (v.extractLsb' 0 16).toNat = v.toInt := by
  rw [← toInt_word_append, append_halves]

/-! ### Products -/

section

variable {n : Nat} (x y : BitVec n)

theorem toNat_ofNat_mul : (BitVec.ofNat (n + n) (x.toNat * y.toNat)).toNat = x.toNat * y.toNat :=
  Nat.mod_eq_of_lt (Nat.pow_add 2 n n ▸ Nat.mul_lt_mul'' x.isLt y.isLt)

theorem toInt_ofInt_mul (hn : 0 < n) : (BitVec.ofInt (n + n) (x.toInt * y.toInt)).toInt = x.toInt * y.toInt := by
  have hlt : (2 : Int) ^ (n * 2 - 2) < 2 ^ (n + n - 1) := pow_lt_pow_right₀ (by decide) (by omega)
  exact BitVec.toInt_ofInt_eq_self (by omega) ((neg_lt_neg hlt).le.trans BitVec.le_toInt_mul_toInt)
    (BitVec.toInt_mul_toInt_le.trans_lt hlt)

end

/-- An integer that is not its own n-bit reading is outside the signed range (41 R133). -/
theorem toInt_ofInt_ne_iff {n : Nat} (hn : 0 < n) (p : Int) :
    (BitVec.ofInt n p).toInt ≠ p ↔ p < -2 ^ (n - 1) ∨ 2 ^ (n - 1) - 1 < p := by
  have hge := (BitVec.ofInt n p).le_toInt
  have hlt := (BitVec.ofInt n p).toInt_lt
  have hself := BitVec.toInt_ofInt_eq_self (n := p) hn
  constructor
  · intro h
    by_contra hin
    exact h (hself (by omega) (by omega))
  · omega

theorem exec_mul (w : Width) (rm : RM) (s : State) :
    let p := (s.read w accPlace).toNat * (s.read w (s.place rm)).toNat
    exec (.mul w rm) s = .next
      ((s.drawn.setFlags (s.flags.setMul s.freeFlags (2 ^ w.bits ≤ p))).setAccDouble w (BitVec.ofNat _ p)) := rfl

theorem exec_imul (w : Width) (rm : RM) (s : State) :
    let p := (s.read w accPlace).toInt * (s.read w (s.place rm)).toInt
    exec (.imul w rm) s = .next
      ((s.drawn.setFlags (s.flags.setMul s.freeFlags (decide (p < -2 ^ (w.bits - 1) ∨ 2 ^ (w.bits - 1) - 1 < p)))).setAccDouble
        w (BitVec.ofInt _ p)) := by
  intro p
  rw [decide_eq_decide.mpr (toInt_ofInt_ne_iff w.bits_pos p).symm, decide_not]
  rfl

/-! ### Quotients -/

theorem toNat_ofNat_rem {n : Nat} (d : Nat) {v : BitVec n} (hv : v.toNat ≠ 0) :
    (BitVec.ofNat n (d % v.toNat)).toNat = d % v.toNat :=
  Nat.mod_eq_of_lt ((Nat.mod_lt d (Nat.pos_of_ne_zero hv)).trans v.isLt)

/-- A remainder is smaller than the divisor, so that it fits where the divisor does (41 R136). -/
theorem toInt_ofInt_rem {n : Nat} (hn : 0 < n) (d : Int) {v : BitVec n} (hv : v.toInt ≠ 0) :
    (BitVec.ofInt n (d.tmod v.toInt)).toInt = d.tmod v.toInt := by
  have habs : (d.tmod v.toInt).natAbs < v.toInt.natAbs := by
    rw [Int.natAbs_tmod]
    exact Nat.mod_lt _ (Int.natAbs_pos.mpr hv)
  have hge := v.le_toInt
  have hlt := v.toInt_lt
  exact BitVec.toInt_ofInt_eq_self hn (by omega) (by omega)

theorem idivMin_eq (n : Nat) : idivMin n = -(2 ^ (n - 1) - 1) := rfl

/-- DIV where the quotient fits: its quotient and remainder are the exact ones (41 R135). -/
theorem exec_div_exact {w : Width} {rm : RM} {s : State} (hd : divideErrorDue (.div w rm) s = false) :
    let d := (s.accDouble w).toNat
    let v := (s.read w (s.place rm)).toNat
    ∃ q r, exec (.div w rm) s = .next (s.divideGives w q r) ∧ q.toNat = d / v ∧ r.toNat = d % v := by
  intro d v
  have hfits := mt divideErrorDue_div_iff.mpr (ne_true_of_eq_false hd)
  obtain ⟨hv, hq⟩ := not_or.mp hfits
  exact ⟨_, _, if_neg hfits, Nat.mod_eq_of_lt (not_le.mp hq), toNat_ofNat_rem d hv⟩

/-- IDIV where the quotient fits (41 R136). -/
theorem exec_idiv_exact {w : Width} {rm : RM} {s : State} (hd : divideErrorDue (.idiv w rm) s = false) :
    let d := (s.accDouble w).toInt
    let v := (s.read w (s.place rm)).toInt
    ∃ q r, exec (.idiv w rm) s = .next (s.divideGives w q r) ∧ q.toInt = d.tdiv v ∧ r.toInt = d.tmod v := by
  intro d v
  have hfits := mt divideErrorDue_idiv_iff.mpr (ne_true_of_eq_false hd)
  obtain ⟨hv, hrange⟩ := not_or.mp hfits
  rw [idivMin_eq] at hrange
  exact ⟨_, _, if_neg hfits, BitVec.toInt_ofInt_eq_self w.bits_pos (by omega) (by omega),
    toInt_ofInt_rem w.bits_pos d hv⟩

theorem State.divideGives_byte (s : State) (q r : Byte) : s.divideGives .byte q r =
    { s with
      gpr := { s.gpr with ax := r ++ q }, flags := s.flags.setUnknown s.freeFlags, freeCount := s.freeCount + 1 } :=
  s.setAl_setAh _ q r

/-! ### AAM and AAD -/

/-- AAD (41 R137). -/
theorem exec_aad (base : Byte) (s : State) : exec (.aad base) s = .next { s with
    gpr := { s.gpr with ax := (0 : Byte) ++ (s.ah * base + s.al) }
    flags := s.flags.setBase s.freeFlags (s.ah * base + s.al)
    freeCount := s.freeCount + 1 } :=
  congrArg Host.Outcome.next (s.setAl_setAh _ _ _)

/-- AAM with a base other than 0 (41 R134). -/
theorem exec_aam {base : Byte} (hb : base ≠ 0) (s : State) : exec (.aam base) s = .next { s with
    gpr := { s.gpr with ax := s.al / base ++ s.al % base }
    flags := s.flags.setBase s.freeFlags (s.al % base)
    freeCount := s.freeCount + 1 } :=
  (exec_aam_of_fits (beq_false_of_ne hb)).trans (congrArg Host.Outcome.next (s.setAh_setAl _ _ _))

/-! ### CWD -/

/-- The upper half of a sign-extended word is all ones or all zeros (41 R139). -/
theorem toInt_sign_half (v : Word) : (if v.msb then 0xFFFF else 0x0000 : Word).toInt * 2 ^ 16 + v.toNat = v.toInt := by
  have hones : (0xFFFF : Word).toInt = -1 := by decide
  rw [v.toInt_eq_msb_cond]
  cases v.msb with
  | false => exact zero_add (v.toNat : Int)
  | true =>
    rw [if_pos rfl, if_pos rfl, hones]
    omega

/-! ### The interrupt sequence -/

/-- Entry `k` of the interrupt pointer table: the offset, then the segment (60 R232). -/
theorem Memory.readWordPhys_vectorAddr (m : Memory) (k : Byte) :
    m.readWordPhys (vectorAddr k) = m.read (4 * k.toNat + 1) ++ m.read (4 * k.toNat) ∧
      m.readWordPhys (vectorAddr k + 2) = m.read (4 * k.toNat + 3) ++ m.read (4 * k.toNat + 2) := by
  have hk := k.isLt
  have haddr : vectorAddr k = 4 * k.toNat := Nat.zero_add _
  have hmem : Config.memBytes = 1048576 := rfl
  rw [haddr, Memory.readWordPhys, Memory.readWordPhys, Nat.mod_eq_of_lt (by omega), Nat.mod_eq_of_lt (by omega)]
  exact ⟨rfl, rfl⟩

/-- Taking an interrupt is the interrupt sequence of 60 R233. -/
theorem State.interrupt_interrupted (s : State) (hs : s.mem.wf = true) (k : Byte) (ret : Word) :
    s.Interrupted (s.interrupt k ret) k ret := by
  obtain ⟨hoff, hseg⟩ := (s.interrupt k ret).mem.readWordPhys_vectorAddr k
  refine ⟨s.interrupt_pushed hs k ret, ?_⟩
  rw [← hoff, ← hseg]
  rfl

/-- What a byte divide that fails leaves open before its interrupt is taken (60 R231). -/
theorem State.divideFails_byte (s : State) : ∃ u : State, s.divideFails .byte = u.interrupt 0 s.ip ∧
    u = { s with gpr := { s.gpr with ax := u.gpr.ax }, flags := u.flags, freeCount := u.freeCount } ∧
    u.flags = { u.flags with df := s.flags.df, ifl := s.flags.ifl, tf := s.flags.tf } :=
  ⟨_, rfl, rfl, rfl⟩

theorem exec_aam_zero (s : State) : exec (.aam 0) s = .next (s.divideFails .byte) := rfl

end Sys2Proof.Machine

open Sys2Proof Sys2Proof.Machine

/-- Settles O41: the double-width accumulator is wide enough for every product. -/
theorem mulImulExactProduct : Obligations.MulImulExactProduct := by
  intro s rm
  refine ⟨⟨_, exec_mul .byte rm s, rfl, toNat_ofNat_mul _ _, rfl⟩,
    ⟨_, exec_mul .word rm s, rfl, (toNat_halves _).trans (toNat_ofNat_mul _ _), rfl⟩,
    ⟨_, exec_imul .byte rm s, rfl, toInt_ofInt_mul _ _ (by decide), rfl⟩,
    ⟨_, exec_imul .word rm s, rfl, (toInt_halves _).trans (toInt_ofInt_mul _ _ (by decide)), rfl⟩⟩

/-- Settles O42: what fits is kept whole by the halves it is written to. -/
theorem divideGivesQuotient : Obligations.DivideGivesQuotient := by
  refine ⟨rfl, rfl, fun s rm => ⟨fun hd => ?_, fun hd => ?_, fun hd => ?_, fun hd => ?_⟩⟩
  · obtain ⟨q, r, hexec, hq, hr⟩ := exec_div_exact hd
    rw [s.divideGives_byte] at hexec
    exact ⟨_, hexec, rfl, (congrArg BitVec.toNat (loByte_append r q)).trans hq,
      (congrArg BitVec.toNat (hiByte_append r q)).trans hr, rfl⟩
  · obtain ⟨q, r, hexec, hq, hr⟩ := exec_div_exact hd
    rw [State.accDouble, toNat_append_eq_add] at hq hr
    exact ⟨_, hexec, rfl, hq, hr, rfl⟩
  · obtain ⟨q, r, hexec, hq, hr⟩ := exec_idiv_exact hd
    rw [s.divideGives_byte] at hexec
    exact ⟨_, hexec, rfl, (congrArg BitVec.toInt (loByte_append r q)).trans hq,
      (congrArg BitVec.toInt (hiByte_append r q)).trans hr, rfl⟩
  · obtain ⟨q, r, hexec, hq, hr⟩ := exec_idiv_exact hd
    rw [State.accDouble, toInt_word_append] at hq hr
    exact ⟨_, hexec, rfl, hq, hr, rfl⟩

/-- Settles O44: AH and AL are written as the two halves of AX; AAM with base 0 is a divide that fails. -/
theorem aamAadResults : Obligations.AamAadResults := by
  intro s base
  obtain ⟨u, hfails, hu, hflags⟩ := s.divideFails_byte
  refine ⟨fun hb => ⟨_, exec_aam hb s, rfl, ?_, ?_, ?_⟩, ⟨_, exec_aad base s, rfl, ?_, ?_, ?_⟩,
    fun hs => ⟨_, u, (exec_aam_zero s).trans (congrArg Host.Outcome.next hfails),
      u.interrupt_interrupted (congrArg State.mem hu ▸ hs) 0 s.ip, hu, hflags⟩⟩
  · rw [Gpr.getByte_ah, hiByte_append]
    exact BitVec.toNat_udiv
  · rw [Gpr.getByte_al, loByte_append]
    exact BitVec.toNat_umod
  · rw [Gpr.getByte_al, loByte_append]
    rfl
  · rw [Gpr.getByte_ah, hiByte_append]
  · rw [Gpr.getByte_al, loByte_append, BitVec.toNat_add, BitVec.toNat_mul, Nat.mod_add_mod]
    rfl
  · rw [Gpr.getByte_al, loByte_append]
    rfl

/-- Settles O45: the upper half is the sign of the lower one. -/
theorem cbwCwdSignExtend : Obligations.CbwCwdSignExtend := by
  refine fun s => ⟨⟨_, rfl, rfl, BitVec.toInt_signExtend_of_le (by decide)⟩, ⟨_, rfl, rfl, toInt_sign_half s.gpr.ax⟩⟩
end

section
/-! PROOFS. Logic, shifts and rotates (42_logic.md): one-bit steps add up to a shift or a rotation by the count, and the
flags of the bitwise operations. -/

namespace Sys2Proof

theorem Width.one_lt_bits (w : Width) : 1 < w.bits := by cases w <;> decide

end Sys2Proof

namespace Sys2Proof.Machine

/-! ### Rotations compose -/

section

variable {n : Nat}

/-- Bit `i` of a word turned right by `r` is bit `r + i` of the word, round the end. -/
theorem getLsbD_rotateRight_modular (x : BitVec n) (r : Nat) {i : Nat} (hi : i < n) :
    (x.rotateRight r).getLsbD i = x.getLsbD ((r + i) % n) := by
  have hr := Nat.mod_lt r (Nat.zero_lt_of_lt hi)
  rw [← BitVec.rotateRight_mod_eq_rotateRight, ← Nat.mod_add_mod, BitVec.getLsbD_rotateRight_of_lt hr]
  generalize r % n = q at hr
  by_cases hlt : i < n - q
  · rw [Nat.mod_eq_of_lt (by omega), decide_eq_true hlt, cond_true]
  · rw [Nat.mod_eq_sub_mod (by omega), Nat.mod_eq_of_lt (by omega), decide_eq_false hlt, cond_false, decide_eq_true hi,
      Bool.true_and, show q + i - n = i - (n - q) by omega]

/-- Counted from the top, bit `i` of a word turned left by `r` is bit `r + i`, round the end; so turns add up. -/
theorem rotateLeft_rotateLeft (x : BitVec n) (j k : Nat) : (x.rotateLeft j).rotateLeft k = x.rotateLeft (j + k) := by
  apply BitVec.eq_of_getMsbD_eq
  intro i hi
  have hmod := Nat.mod_lt (k + i) (Nat.zero_lt_of_lt hi)
  simp only [BitVec.getMsbD_rotateLeft, hi, hmod, decide_true, Bool.true_and, Nat.add_mod_mod, Nat.add_assoc]

theorem rotateRight_rotateRight (x : BitVec n) (j k : Nat) :
    (x.rotateRight j).rotateRight k = x.rotateRight (j + k) := by
  apply BitVec.eq_of_getLsbD_eq
  intro i hi
  have hmod := Nat.mod_lt (k + i) (Nat.zero_lt_of_lt hi)
  rw [getLsbD_rotateRight_modular _ _ hi, getLsbD_rotateRight_modular _ _ hmod, getLsbD_rotateRight_modular _ _ hi,
    Nat.add_mod_mod, Nat.add_assoc]

theorem rotateLeft_zero (x : BitVec n) : x.rotateLeft 0 = x := by
  apply BitVec.eq_of_getMsbD_eq
  intro i hi
  rw [BitVec.getMsbD_rotateLeft, Nat.zero_add, Nat.mod_eq_of_lt hi, decide_eq_true hi, Bool.true_and]

theorem rotateRight_zero (x : BitVec n) : x.rotateRight 0 = x := by
  apply BitVec.eq_of_getLsbD_eq
  intro i hi
  rw [getLsbD_rotateRight_modular _ _ hi, Nat.zero_add, Nat.mod_eq_of_lt hi]

/-! ### One bit in, one bit out -/

section

variable (x : BitVec n) (c : Bool) {i : Nat}

theorem getLsbD_bitAt (j : Nat) : (bitAt n j c).getLsbD i = (decide (i = j ∧ i < n) && c) := by
  rw [bitAt, BitVec.getLsbD_shiftLeft, BitVec.getLsbD_setWidth, BitVec.getLsbD_ofBool]
  grind

theorem getLsbD_shiftLeft_or_bitAt (hi : i < n) :
    (x <<< 1 ||| bitAt n 0 c).getLsbD i = if i = 0 then c else x.getLsbD (i - 1) := by
  rw [BitVec.getLsbD_or, BitVec.getLsbD_shiftLeft, getLsbD_bitAt]
  grind

theorem getLsbD_ushiftRight_or_bitAt (hi : i < n) :
    (x >>> 1 ||| bitAt n (n - 1) c).getLsbD i = if i + 1 < n then x.getLsbD (i + 1) else c := by
  rw [BitVec.getLsbD_or, BitVec.getLsbD_ushiftRight, getLsbD_bitAt]
  grind

theorem getLsbD_rotateLeft_one (hn : 1 < n) (hi : i < n) :
    (x.rotateLeft 1).getLsbD i = if i = 0 then x.msb else x.getLsbD (i - 1) := by
  rw [BitVec.getLsbD_rotateLeft_of_le hn, BitVec.msb_eq_getLsbD_last]
  grind

theorem getLsbD_rotateRight_one (hn : 1 < n) (hi : i < n) :
    (x.rotateRight 1).getLsbD i = if i + 1 < n then x.getLsbD (i + 1) else x.getLsbD 0 := by
  rw [BitVec.getLsbD_rotateRight_of_lt hn]
  grind

/-- The bit put in by an arithmetic shift is the sign (42 R145). -/
theorem sshiftRight_one : x.sshiftRight 1 = x >>> 1 ||| bitAt n (n - 1) x.msb := by
  apply BitVec.eq_of_getLsbD_eq
  intro i hi
  rw [getLsbD_ushiftRight_or_bitAt _ _ hi, BitVec.getLsbD_sshiftRight, Nat.add_comm, decide_eq_false (not_le.mpr hi)]
  rfl

/-- The bit put in by a rotation is the one that comes out (42 R146). -/
theorem rotateLeft_one (hn : 1 < n) : x.rotateLeft 1 = x <<< 1 ||| bitAt n 0 x.msb :=
  BitVec.eq_of_getLsbD_eq fun _ hi =>
    (getLsbD_rotateLeft_one x hn hi).trans (getLsbD_shiftLeft_or_bitAt x _ hi).symm

/-- 42 R147. -/
theorem rotateRight_one (hn : 1 < n) : x.rotateRight 1 = x >>> 1 ||| bitAt n (n - 1) (x.getLsbD 0) :=
  BitVec.eq_of_getLsbD_eq fun _ hi =>
    (getLsbD_rotateRight_one x hn hi).trans (getLsbD_ushiftRight_or_bitAt x _ hi).symm

theorem getLsbD_ofBool_append (hi : i < 1 + n) :
    (BitVec.ofBool c ++ x).getLsbD i = if i < n then x.getLsbD i else c := by
  rw [BitVec.getLsbD_append, BitVec.getLsbD_ofBool, decide_eq_true (show i - n = 0 by omega), Bool.true_and]

theorem msb_ofBool_append : (BitVec.ofBool c ++ x).msb = c := by
  simp [BitVec.msb_append]

theorem setWidth_ofBool_append : (BitVec.ofBool c ++ x).setWidth n = x := by
  simp [BitVec.setWidth_append]

/-- The bit that comes out of CF:operand at the top goes in below, and what was CF is the bit put into the operand
(42 R148). -/
theorem rotateLeft_one_ofBool_append (hn : 0 < n) :
    (BitVec.ofBool c ++ x).rotateLeft 1 = BitVec.ofBool x.msb ++ (x <<< 1 ||| bitAt n 0 c) := by
  apply BitVec.eq_of_getLsbD_eq
  intro i hi
  rw [getLsbD_rotateLeft_one _ (by omega) hi, getLsbD_ofBool_append _ _ (by omega), getLsbD_ofBool_append _ _ hi,
    msb_ofBool_append, if_pos (by omega : i - 1 < n)]
  by_cases hlast : i < n
  · rw [if_pos hlast, getLsbD_shiftLeft_or_bitAt _ _ hlast]
  · rw [if_neg hlast, if_neg (by omega), BitVec.msb_eq_getLsbD_last, show i = n by omega]

/-- 42 R149. -/
theorem rotateRight_one_ofBool_append (hn : 0 < n) :
    (BitVec.ofBool c ++ x).rotateRight 1 = BitVec.ofBool (x.getLsbD 0) ++ (x >>> 1 ||| bitAt n (n - 1) c) := by
  apply BitVec.eq_of_getLsbD_eq
  intro i hi
  rw [getLsbD_rotateRight_one _ (by omega) hi, getLsbD_ofBool_append _ _ hi]
  by_cases hlast : i < n
  · rw [if_pos hlast, if_pos (by omega), getLsbD_ofBool_append _ _ (by omega), getLsbD_ushiftRight_or_bitAt _ _ hlast]
  · rw [if_neg hlast, if_neg (by omega), getLsbD_ofBool_append _ _ (by omega), if_pos hn]

end

/-! ### Many steps -/

/-- A last step after `k` steps, where `ShiftOp.times` does the first one first. -/
theorem ShiftOp.times_succ (op : ShiftOp) (k : Nat) (x : BitVec n) (cf : Bool) :
    op.times (k + 1) x cf = op.once (op.times k x cf).1 (op.times k x cf).2 := by
  induction k generalizing x cf with
  | zero => rfl
  | succ k ih => exact ih (op.once x cf).1 (op.once x cf).2

/-- Where a step does not look at CF, the values `g k` that the steps run through and the bits `b k` that they shift out are
the outcome of every count `k` but 0. -/
theorem ShiftOp.times_eq_of_once {op : ShiftOp} {x : BitVec n} {g : Nat → BitVec n} {b : Nat → Bool} (h0 : g 0 = x)
    (hstep : ∀ j c, op.once (g j) c = (g (j + 1), b (j + 1))) {k : Nat} (hk : k ≠ 0) (cf : Bool) :
    op.times k x cf = (g k, b k) := by
  obtain ⟨k, rfl⟩ := Nat.exists_eq_succ_of_ne_zero hk
  clear hk
  induction k with
  | zero => exact h0 ▸ hstep 0 cf
  | succ k ih => rw [ShiftOp.times_succ, ih, hstep]

/-- Where a step turns CF:operand by one bit, `k` steps turn it by `k`. -/
theorem ShiftOp.append_times_of_once {op : ShiftOp} {turn : BitVec (1 + n) → Nat → BitVec (1 + n)}
    (hzero : ∀ y, turn y 0 = y) (hadd : ∀ y j k, turn (turn y j) k = turn y (j + k))
    (hstep : ∀ (x : BitVec n) c, BitVec.ofBool (op.once x c).2 ++ (op.once x c).1 = turn (BitVec.ofBool c ++ x) 1)
    (k : Nat) (x : BitVec n) (cf : Bool) :
    BitVec.ofBool (op.times k x cf).2 ++ (op.times k x cf).1 = turn (BitVec.ofBool cf ++ x) k := by
  induction k with
  | zero => exact (hzero _).symm
  | succ k ih => rw [ShiftOp.times_succ, hstep, ih, hadd]

section

variable (x : BitVec n) (cf : Bool) {k : Nat} (hk : k ≠ 0)

include hk

/-- 42 R143. -/
theorem ShiftOp.times_shl : ShiftOp.shl.times k x cf = (x <<< k, decide (k ≤ n) && x.getLsbD (n - k)) := by
  refine times_eq_of_once (b := fun j => decide (j ≤ n) && x.getLsbD (n - j)) (BitVec.shiftLeft_zero x) (fun j c => ?_) hk cf
  refine Prod.ext (x.shiftLeft_add j 1).symm ?_
  rw [ShiftOp.once, BitVec.msb_shiftLeft, BitVec.getMsbD_eq_getLsbD, Nat.sub_sub, Nat.add_comm]
  rfl

/-- 42 R144. -/
theorem ShiftOp.times_shr : ShiftOp.shr.times k x cf = (x >>> k, x.getLsbD (k - 1)) := by
  refine times_eq_of_once (b := fun j => x.getLsbD (j - 1)) (BitVec.ushiftRight_zero x) (fun j c => ?_) hk cf
  exact Prod.ext (x.shiftRight_add j 1).symm (x.getLsbD_ushiftRight j 0)

/-- 42 R145. -/
theorem ShiftOp.times_sar :
    ShiftOp.sar.times k x cf = (x.sshiftRight k, (x.sshiftRight (k - 1)).getLsbD 0) := by
  refine times_eq_of_once (b := fun j => (x.sshiftRight (j - 1)).getLsbD 0) BitVec.sshiftRight_zero (fun j c => ?_) hk cf
  exact Prod.ext ((sshiftRight_one _).symm.trans BitVec.sshiftRight_add.symm) rfl

/-- 42 R146. -/
theorem ShiftOp.times_rol (hn : 1 < n) : ShiftOp.rol.times k x cf = (x.rotateLeft k, (x.rotateLeft k).getLsbD 0) := by
  refine times_eq_of_once (b := fun j => (x.rotateLeft j).getLsbD 0) (rotateLeft_zero x) (fun j c => ?_) hk cf
  rw [← rotateLeft_rotateLeft, getLsbD_rotateLeft_one _ hn (by omega), rotateLeft_one _ hn]
  rfl

/-- 42 R147. -/
theorem ShiftOp.times_ror (hn : 1 < n) : ShiftOp.ror.times k x cf = (x.rotateRight k, (x.rotateRight k).msb) := by
  refine times_eq_of_once (b := fun j => (x.rotateRight j).msb) (rotateRight_zero x) (fun j c => ?_) hk cf
  rw [← rotateRight_rotateRight, BitVec.msb_eq_getLsbD_last, getLsbD_rotateRight_one _ hn (by omega), if_neg (by omega),
    rotateRight_one _ hn]
  rfl

end

/-- CF and the operand are the top bit of CF:operand and the bits below it. -/
theorem pair_eq_of_append_eq {p : BitVec n × Bool} {y : BitVec (1 + n)} (h : BitVec.ofBool p.2 ++ p.1 = y) :
    p = (y.setWidth n, y.msb) := by
  rw [← h, setWidth_ofBool_append, msb_ofBool_append]

/-- 42 R148. -/
theorem ShiftOp.times_rcl (hn : 0 < n) (x : BitVec n) (cf : Bool) (k : Nat) :
    let l := (BitVec.ofBool cf ++ x).rotateLeft k
    ShiftOp.rcl.times k x cf = (l.setWidth n, l.msb) :=
  pair_eq_of_append_eq <| append_times_of_once (op := .rcl) rotateLeft_zero rotateLeft_rotateLeft
    (fun x c => (rotateLeft_one_ofBool_append x c hn).symm) k x cf

/-- 42 R149. -/
theorem ShiftOp.times_rcr (hn : 0 < n) (x : BitVec n) (cf : Bool) (k : Nat) :
    let r := (BitVec.ofBool cf ++ x).rotateRight k
    ShiftOp.rcr.times k x cf = (r.setWidth n, r.msb) :=
  pair_eq_of_append_eq <| append_times_of_once (op := .rcr) rotateRight_zero rotateRight_rotateRight
    (fun x c => (rotateRight_one_ofBool_append x c hn).symm) k x cf

end

/-! ### The flags -/

/-- OF is given for count 1 only (42 R140). -/
theorem ShiftOp.flags_of {n : Nat} (op : ShiftOp) (k : Nat) (x0 x : BitVec n) (cf : Bool) (f any : Flags) :
    (op.flags k x0 x cf f any).of = if k = 1 then op.overflow x0 x cf else any.of := by
  rw [ShiftOp.flags]
  split <;> rfl

/-- Flags of a shift but for OF (10_state.md R34; 42 R143 to R145). -/
theorem ShiftOp.flags_shift {n : Nat} {op : ShiftOp} (hop : op.isShift = true) (k : Nat) (x0 x : BitVec n) (cf : Bool)
    (f any : Flags) :
    let g := op.flags k x0 x cf f any
    g = { f with of := g.of, sf := decide (x.toInt < 0), zf := decide (x = 0), af := g.af, pf := parity8 x, cf := cf } := by
  rw [ShiftOp.flags, if_pos hop, ← BitVec.msb_eq_toInt]
  rfl

/-- Flags of a rotate but for OF (10 R34; 42 R146 to R149). -/
theorem ShiftOp.flags_rotate {n : Nat} {op : ShiftOp} (hop : op.isShift = false) (k : Nat) (x0 x : BitVec n) (cf : Bool)
    (f any : Flags) :
    let g := op.flags k x0 x cf f any
    g = { f with of := g.of, cf := cf } := by
  rw [ShiftOp.flags, hop]
  rfl

/-! ### Shifts and rotates of an operand -/

/-- The count is 1 or all eight bits of CL (42 R140). -/
theorem State.shiftCount_eq (s : State) (v : CountSel) : s.shiftCount v =
    match v with
    | .one => 1
    | .cl => (s.gpr.getByte .cxCl).toNat := by
  cases v with
  | one => rfl
  | cl => exact congrArg BitVec.toNat BitVec.and_allOnes

section

variable (s : State) (hs : s.mem.wf = true) (v : CountSel) (w : Width) (rm : RM) {k : Nat} (hcount : s.shiftCount v = k)
  (hk : k ≠ 0) {op : ShiftOp} {r : BitVec w.bits} {c : Bool}
  (htimes : op.times k (s.read w (s.place rm)) s.flags.cf = (r, c))

include hcount hk htimes

theorem State.shift_flags_of_times :
    (s.shift op v w rm).flags = op.flags k (s.read w (s.place rm)) r c s.flags s.freeFlags := by
  rw [s.shift_flags op v w rm (hcount ▸ hk), hcount, htimes]

include hs in
theorem State.shift_wrote_of_times : s.Wrote (s.shift op v w rm) w (s.place rm) r := by
  have hwrote := s.shift_wrote hs op v w rm (hcount ▸ hk)
  rwa [hcount, htimes] at hwrote

variable {o : Bool} (hof : k = 1 → op.overflow (s.read w (s.place rm)) r c = o)

include hof

theorem State.shift_of (b : Bool) (hb : (if k = 1 then some o else none) = some b) :
    (s.shift op v w rm).flags.of = b := by
  obtain ⟨hone, hob⟩ := Option.ite_none_right_eq_some.mp hb
  rw [s.shift_flags_of_times v w rm hcount hk htimes, ShiftOp.flags_of, if_pos hone, hof hone, Option.some.inj hob]

include hs

theorem State.shift_shifted (hop : op.isShift = true) :
    s.Shifted (s.shift op v w rm) w (s.place rm) r c (if k = 1 then some o else none) := by
  refine ⟨s.shift_wrote_of_times hs v w rm hcount hk htimes, s.shift_of v w rm hcount hk htimes hof, ?_⟩
  rw [s.shift_flags_of_times v w rm hcount hk htimes]
  exact ShiftOp.flags_shift hop k _ r c _ _

theorem State.shift_rotated (hop : op.isShift = false) :
    s.Rotated (s.shift op v w rm) w (s.place rm) r c (if k = 1 then some o else none) := by
  refine ⟨s.shift_wrote_of_times hs v w rm hcount hk htimes, s.shift_of v w rm hcount hk htimes hof, ?_⟩
  rw [s.shift_flags_of_times v w rm hcount hk htimes]
  exact ShiftOp.flags_rotate hop k _ r c _ _

end

/-! ### Bitwise operations -/

theorem Flags.afterLogic_setLogic {n : Nat} (f any : Flags) (r : BitVec n) : f.AfterLogic (f.setLogic any r) r := by
  rw [Flags.AfterLogic, ← BitVec.msb_eq_toInt]
  rfl

section

variable (s : State) (w : Width) (p : Place) (b : BitVec w.bits)

theorem State.binary_test_tested : s.Tested (s.binary .test w p b) (s.read w p &&& b) := by
  rw [s.binary_noWrite .test w p b rfl]
  exact ⟨Flags.afterLogic_setLogic _ _ _, rfl⟩

/-- AND, OR and XOR write the result back and set the flags from it (42 R150, R152, R153). -/
theorem State.binary_combined (hs : s.mem.wf = true) {op : BinOp} {r : BitVec w.bits} (hop : op.writesBack = true)
    (heval : op.eval (s.read w p) b s.flags s.freeFlags = (r, s.flags.setLogic s.freeFlags r)) :
    s.Combined (s.binary op w p b) w p r := by
  have hwrote := s.binary_wrote hs op w p b hop
  rw [State.Combined, s.binary_flags, heval]
  rw [heval] at hwrote
  exact ⟨hwrote, Flags.afterLogic_setLogic _ _ _⟩

end

end Sys2Proof.Machine

open Sys2Proof Sys2Proof.Machine

/-- Settles O46: each form is one bitwise operation on its destination place. -/
theorem andOrXorResultAndFlags : Obligations.AndOrXorResultAndFlags := by
  intro s hs
  have hand w p b := s.binary_combined w p b hs (op := .and) rfl rfl
  have hor w p b := s.binary_combined w p b hs (op := .or) rfl rfl
  have hxor w p b := s.binary_combined w p b hs (op := .xor) rfl rfl
  exact ⟨fun d w reg rm => ⟨⟨_, rfl, s.binaryRmReg_eq .and d w reg rm ▸ hand w _ _⟩,
      ⟨_, rfl, s.binaryRmReg_eq .or d w reg rm ▸ hor w _ _⟩, ⟨_, rfl, s.binaryRmReg_eq .xor d w reg rm ▸ hxor w _ _⟩⟩,
    fun _ _ => ⟨⟨_, rfl, hand _ _ _⟩, ⟨_, rfl, hor _ _ _⟩, ⟨_, rfl, hxor _ _ _⟩⟩,
    fun _ => ⟨⟨_, rfl, hand _ _ _⟩, ⟨_, rfl, hor _ _ _⟩, ⟨_, rfl, hxor _ _ _⟩⟩⟩

/-- Settles O47: TEST is an AND whose result is dropped, NOT one write. -/
theorem testNotEffects : Obligations.TestNotEffects := fun s =>
  ⟨fun w _ _ => ⟨_, rfl, s.binary_test_tested w _ _⟩, fun _ _ => ⟨_, rfl, s.binary_test_tested _ _ _⟩,
    fun _ => ⟨_, rfl, s.binary_test_tested _ _ _⟩, fun hs w _ => ⟨_, rfl, s.write_wroteOnly hs w _ _⟩⟩

/-- Settles O48: single shifts add up to one shift by the count, and the last of them gives CF. -/
theorem shiftsByAnyCount : Obligations.ShiftsByAnyCount := by
  intro s hs v w rm n k x
  have hcount : s.shiftCount v = k := s.shiftCount_eq v
  refine ⟨fun hk => ?_, fun hk => ⟨⟨_, rfl, ?_⟩, ⟨_, rfl, ?_⟩, ⟨_, rfl, ?_⟩⟩⟩
  · have hzero op := s.shift_zero op v w rm (hcount.trans hk)
    exact ⟨congrArg _ (hzero .shl), congrArg _ (hzero .shr), congrArg _ (hzero .sar)⟩
  · refine s.shift_shifted hs v w rm hcount hk (ShiftOp.times_shl x _ hk) (fun hone => ?_) rfl
    rw [hone, decide_eq_true (show 1 ≤ n from w.bits_pos), Bool.true_and, x.msb_eq_getLsbD_last]
    rfl
  · exact s.shift_shifted hs v w rm hcount hk (ShiftOp.times_shr x _ hk) (fun _ => rfl) rfl
  · exact s.shift_shifted hs v w rm hcount hk (ShiftOp.times_sar x _ hk) (fun _ => rfl) rfl

/-- Settles O49: single turns add up, those of ROL and ROR on the operand, those of RCL and RCR on CF:operand. -/
theorem rotatesByAnyCount : Obligations.RotatesByAnyCount := by
  intro s hs v w rm n k x y l r
  have hcount : s.shiftCount v = k := s.shiftCount_eq v
  have hn := w.one_lt_bits
  refine ⟨fun hk => ?_, fun hk => ⟨⟨_, rfl, ?_⟩, ⟨_, rfl, ?_⟩, ⟨_, rfl, ?_⟩, ⟨_, rfl, ?_⟩⟩⟩
  · have hzero op := s.shift_zero op v w rm (hcount.trans hk)
    exact ⟨congrArg _ (hzero .rol), congrArg _ (hzero .ror), congrArg _ (hzero .rcl), congrArg _ (hzero .rcr)⟩
  · refine s.shift_rotated hs v w rm hcount hk (ShiftOp.times_rol x _ hk hn) (fun hone => ?_) rfl
    rw [hone, getLsbD_rotateLeft_one x hn (by omega)]
    rfl
  · exact s.shift_rotated hs v w rm hcount hk (ShiftOp.times_ror x _ hk hn) (fun hone => by rw [hone]; rfl) rfl
  · refine s.shift_rotated hs v w rm hcount hk (ShiftOp.times_rcl w.bits_pos x _ k) (fun _ => ?_) rfl
    rw [ShiftOp.overflow, BitVec.msb_eq_getLsbD_last, BitVec.getLsbD_setWidth, decide_eq_true (by omega)]
    rfl
  · refine s.shift_rotated hs v w rm hcount hk (ShiftOp.times_rcr w.bits_pos x _ k) (fun _ => ?_) rfl
    rw [ShiftOp.overflow, BitVec.getLsbD_setWidth, BitVec.getLsbD_setWidth, decide_eq_true (by omega),
      decide_eq_true (by omega)]
    rfl
end

section
/-! PROOFS. One element of each string instruction (43_string.md R160, R162 to R166): what it changes and what it leaves
alone. -/

namespace Sys2Proof.Machine

/-! ### Elements in memory -/

theorem State.read_mem_of_sameOff {s t : State} {l : List Nat} (h : s.mem.SameOff t.mem l) {w : Width} {sg off : Word}
    (hl : ∀ a ∈ (Place.mem sg off).bytes w, a ∉ l) : t.read w (.mem sg off) = s.read w (.mem sg off) := by
  cases w with
  | byte => exact h _ (hl _ (List.mem_singleton_self _))
  | word =>
    have hlo := h _ (hl _ (List.mem_cons_self ..))
    have hhi := h _ (hl _ (List.mem_cons_of_mem _ (List.mem_singleton_self _)))
    exact congrArg₂ (· ++ ·) hhi hlo

theorem State.read_mem_congr {s t : State} (h : t.mem = s.mem) (w : Width) (sg off : Word) :
    t.read w (.mem sg off) = s.read w (.mem sg off) :=
  State.read_mem_of_sameOff (l := []) (fun _ _ => by rw [h]) fun _ _ => List.not_mem_nil

/-- The pointers move by the element size, up with DF = 0 and down with DF = 1 (43 R160). -/
theorem State.add_delta (s : State) (w : Width) (x : Word) : x + s.delta w =
    if s.flags.df then x - BitVec.ofNat 16 (w.bits / 8) else x + BitVec.ofNat 16 (w.bits / 8) := by
  cases hdf : s.flags.df with
  | false => cases w <;> simp [State.delta, hdf, Width.bits]
  | true => cases w <;> simp [State.delta, hdf, Width.bits, sub_eq_add_neg]

/-! ### What an element changes -/

theorem movsElement_mem (w : Width) (s : State) :
    (movsElement w s).mem = (s.write w s.stringDst (s.read w s.stringSrc)).mem := rfl

theorem stosElement_mem (w : Width) (s : State) :
    (stosElement w s).mem = (s.write w s.stringDst (s.read w accPlace)).mem := rfl

theorem movsElement_eq (w : Width) (s : State) :
    let t := s.write w s.stringDst (s.read w s.stringSrc)
    movsElement w s = { s with
      gpr := { s.gpr with si := s.gpr.si + s.delta w, di := s.gpr.di + s.delta w }
      mem := t.mem, staleCode := t.staleCode } := by
  cases w <;> rfl

theorem cmpsElement_eq (w : Width) (s : State) : cmpsElement w s = { s with
    gpr := { s.gpr with si := s.gpr.si + s.delta w, di := s.gpr.di + s.delta w }
    flags := s.flags.setSum (subN (s.read w s.stringSrc) (s.read w s.stringDst) false) } := by
  cases w <;> rfl

theorem scasElement_eq (w : Width) (s : State) : scasElement w s = { s with
    gpr := { s.gpr with di := s.gpr.di + s.delta w }
    flags := s.flags.setSum (subN (s.read w accPlace) (s.read w s.stringDst) false) } := by
  cases w <;> rfl

theorem lodsElement_eq (w : Width) (s : State) : lodsElement w s = { s with
    gpr := { s.gpr with ax := (s.write w accPlace (s.read w s.stringSrc)).gpr.ax, si := s.gpr.si + s.delta w } } := by
  cases w <;> rfl

theorem stosElement_eq (w : Width) (s : State) :
    let t := s.write w s.stringDst (s.read w accPlace)
    stosElement w s = { s with
      gpr := { s.gpr with di := s.gpr.di + s.delta w }, mem := t.mem, staleCode := t.staleCode } := by
  cases w <;> rfl

/-- LODS leaves the element in the accumulator (43 R165). -/
theorem lodsElement_read (w : Width) (s : State) :
    (lodsElement w s).read w (.reg .axAl) = s.read w s.stringSrc := by
  rw [lodsElement_eq]
  cases w with
  | byte => exact loByte_append _ _
  | word => rfl

/-- LODS of a byte leaves AH alone. -/
theorem lodsElement_ah (s : State) : (lodsElement .byte s).gpr.getByte .spAh = s.gpr.getByte .spAh :=
  hiByte_append _ _

/-- CMPS and SCAS set the flags of a comparison (43 R163, R164). -/
theorem Flags.afterSub_compare (f : Flags) (w : Width) (a b : BitVec w.bits) :
    f.AfterSub (f.setSum (subN a b false)) a b (BitVec.ofInt w.bits (a.toInt - b.toInt)) false := by
  have hsub := Flags.afterSub_subN a b false w.bits_pos f
  rwa [subN_res, Bool.toNat_false, Nat.cast_zero, sub_zero] at hsub

end Sys2Proof.Machine

open Sys2Proof Sys2Proof.Machine

/-- Settles O50: without REP a string instruction is its element. -/
theorem stringElements : Obligations.StringElements := by
  intro s w hs hrep k step src dst
  have hstep (x : Word) : x + s.delta w = step x := s.add_delta w x
  have hone usesZf bytes elem := s.string_of_rep_none hrep usesZf bytes elem
  refine ⟨⟨_, hone .., ?_, ?_⟩, ⟨_, hone .., ?_, ?_⟩, ⟨_, hone .., ?_, ?_⟩,
    ⟨_, hone .., lodsElement_read w s, ?_, ?_⟩, ⟨_, hone .., ?_, ?_⟩⟩
  · exact (State.read_mem_congr (movsElement_mem w s) w _ _).trans (s.read_write_same hs w dst _)
  · rw [movsElement_eq, hstep, hstep]
    exact ⟨s.write_sameOff w dst _, s.write_remembers w dst _, rfl⟩
  · rw [cmpsElement_eq]
    exact s.flags.afterSub_compare w _ _
  · rw [cmpsElement_eq, hstep, hstep]
  · rw [scasElement_eq]
    exact s.flags.afterSub_compare w _ _
  · rw [scasElement_eq, hstep]
  · rintro rfl
    exact lodsElement_ah s
  · rw [lodsElement_eq, hstep]
  · exact (State.read_mem_congr (stosElement_mem w s) w _ _).trans (s.read_write_same hs w dst _)
  · rw [stosElement_eq, hstep]
    exact ⟨s.write_sameOff w dst _, s.write_remembers w dst _, rfl⟩
end

section
/-! PROOFS. Repetitions (43_string.md R161): the string instructions as one family of elements, and each way a turn of the
loop can go (60_exceptions.md R234; 70_reset_and_hazards.md R260). -/

namespace Sys2Proof.Machine

/-! ### The string instructions as one family -/

/-- One element of a string instruction. -/
def elementOf : Instr → State → State
  | .movs w => movsElement w
  | .cmps w => cmpsElement w
  | .scas w => scasElement w
  | .lods w => lodsElement w
  | .stos w => stosElement w
  | _ => id

/-- The bytes it stores to. -/
def elementStores : Instr → State → List Nat
  | .movs w | .stos w => fun s => s.stringDst.bytes w
  | _ => fun _ => []

/-- CMPS and SCAS end on ZF as well. -/
def endsOnZf : Instr → Bool
  | .cmps _ | .scas _ => true
  | _ => false

theorem exec_string {i : Instr} (hi : i.isStringPrimitive = true) (s : State) :
    exec i s = s.string (endsOnZf i) (elementStores i) (elementOf i) := by
  cases i with
  | movs | cmps | scas | lods | stos => rfl
  | _ => cases hi

theorem endsOnZf_iff {i : Instr} : endsOnZf i = true ↔ (∃ w, i = .cmps w) ∨ ∃ w, i = .scas w := by
  constructor
  · intro h
    cases i with
    | cmps w => exact .inl ⟨w, rfl⟩
    | scas w => exact .inr ⟨w, rfl⟩
    | _ => cases h
  · rintro (⟨w, rfl⟩ | ⟨w, rfl⟩) <;> rfl

theorem storesOf_of_string {i : Instr} (hi : i.isStringPrimitive = true) {s : State} (hrep : s.pfx.rep = none) :
    storesOf i s = elementStores i s := by
  cases i with
  | movs w | stos w => exact s.elementBytes_of_rep_none hrep w
  | cmps | scas | lods => rfl
  | _ => cases hi

/-- The same state with REP recorded otherwise, or not at all. -/
def State.withRep (s : State) (r : Option Bool) : State := { s with pfx := { s.pfx with rep := r } }

/-- What the loop of REP needs to know of an element: it leaves alone CX, IF and everything but registers, flags and memory,
and it does not look at REP. -/
structure IsElement (elem : State → State) : Prop where
  cx : ∀ s, (elem s).gpr.cx = s.gpr.cx
  ifl : ∀ s, (elem s).flags.ifl = s.flags.ifl
  rest : ∀ s : State, s.SameElse (elem s)
  withRep : ∀ s r, elem (s.withRep r) = (elem s).withRep r

theorem movsElement_isElement (w : Width) : IsElement (movsElement w) where
  cx s := by rw [movsElement_eq]
  ifl s := by rw [movsElement_eq]
  rest := movsElement_sameElse w
  withRep s r := by cases w <;> rfl

theorem cmpsElement_isElement (w : Width) : IsElement (cmpsElement w) where
  cx s := by rw [cmpsElement_eq]
  ifl s := rfl
  rest := cmpsElement_sameElse w
  withRep s r := by cases w <;> rfl

theorem scasElement_isElement (w : Width) : IsElement (scasElement w) where
  cx s := by rw [scasElement_eq]
  ifl s := rfl
  rest := scasElement_sameElse w
  withRep s r := by cases w <;> rfl

theorem lodsElement_isElement (w : Width) : IsElement (lodsElement w) where
  cx s := by rw [lodsElement_eq]
  ifl s := by rw [lodsElement_eq]
  rest := lodsElement_sameElse w
  withRep s r := by cases w <;> rfl

theorem stosElement_isElement (w : Width) : IsElement (stosElement w) where
  cx s := by rw [stosElement_eq]
  ifl s := by rw [stosElement_eq]
  rest := stosElement_sameElse w
  withRep s r := by cases w <;> rfl

theorem elementOf_isElement {i : Instr} (hi : i.isStringPrimitive = true) : IsElement (elementOf i) := by
  cases i with
  | movs w => exact movsElement_isElement w
  | cmps w => exact cmpsElement_isElement w
  | scas w => exact scasElement_isElement w
  | lods w => exact lodsElement_isElement w
  | stos w => exact stosElement_isElement w
  | _ => cases hi

/-- One turn of the loop: an element, and CX lowered by 1. -/
def turn (elem : State → State) (s : State) : State := (elem s).decCx

section

variable {elem : State → State} (h : IsElement elem) (s : State)

include h

/-- All that a turn can change. -/
theorem IsElement.turn_eq : ∃ (g : Gpr) (f : Flags) (m : Memory) (c : List Nat) (k : Nat), turn elem s = { s with
    gpr := { g with cx := s.gpr.cx - 1 }, flags := { f with ifl := s.flags.ifl }, mem := m, staleCode := c
    freeCount := k } := by
  refine ⟨(elem s).gpr, (elem s).flags, (elem s).mem, (elem s).staleCode, (elem s).freeCount, ?_⟩
  rw [← h.cx s, ← h.ifl s]
  exact congrArg State.decCx (h.rest s)

theorem IsElement.turn_cx : (turn elem s).gpr.cx = s.gpr.cx - 1 := by
  obtain ⟨g, f, m, c, k, ht⟩ := h.turn_eq s
  rw [ht]

/-- A turn is the element of the same instruction without REP, with REP put back and CX lowered. -/
theorem IsElement.turn_of_withRep :
    let e := elem (s.withRep none)
    ({ e with pfx := s.pfx, gpr := { e.gpr with cx := s.gpr.cx - 1 } } : State) = turn elem s := by
  have hpfx : (elem s).pfx = s.pfx := by rw [h.rest s]
  rw [h.withRep, turn, ← hpfx, ← h.cx s]
  rfl

/-- A turn leaves alone what the boundary looks at. -/
theorem IsElement.turn_due_iff : (turn elem s).Due ↔ s.Due := by
  obtain ⟨g, f, m, c, k, ht⟩ := h.turn_eq s
  rw [ht]
  exact Iff.rfl

theorem IsElement.turn_quiet_iff : (turn elem s).Quiet ↔ s.Quiet := by
  obtain ⟨g, f, m, c, k, ht⟩ := h.turn_eq s
  rw [ht]
  exact Iff.rfl

theorem IsElement.turn_input : (turn elem s).input = s.input := by
  obtain ⟨g, f, m, c, k, ht⟩ := h.turn_eq s
  rw [ht]
  rfl

theorem IsElement.turn_pfx : (turn elem s).pfx = s.pfx := by
  obtain ⟨g, f, m, c, k, ht⟩ := h.turn_eq s
  rw [ht]

theorem IsElement.turn_startIp : (turn elem s).startIp = s.startIp := by
  obtain ⟨g, f, m, c, k, ht⟩ := h.turn_eq s
  rw [ht]

end

/-! ### One turn of the loop -/

theorem State.due_iff (s : State) : s.Due ↔ (s.externalDue || s.tfAtStart) = true := by
  cases hin : s.input.intr <;> simp [State.Due, State.externalDue, State.nmiNow, State.intrNow, hin, or_assoc]

section

variable {elem : State → State} {dst : State → List Nat} {stop : State → Bool} {n : Nat} {s : State}

/-- The repetition is over. -/
theorem repeatString_last (hover : (stop (turn elem s) || (turn elem s).gpr.cx == 0) = true) :
    repeatString elem dst stop (n + 1) s = .next (turn elem s) :=
  if_pos hover

variable (hmore : ¬ (stop (turn elem s) || (turn elem s).gpr.cx == 0) = true)

include hmore

theorem repeatString_resetAtBoundary (hreset : (turn elem s).input.reset = .atBoundary) :
    repeatString elem dst stop (n + 1) s = .next ((turn elem s).setIp (turn elem s).startIp) :=
  (if_neg hmore).trans (if_pos (beq_iff_eq.mpr hreset))

variable (hreset : (turn elem s).input.reset ≠ .atBoundary)

include hreset

theorem repeatString_of_due (hdue : (turn elem s).Due) : repeatString elem dst stop (n + 1) s =
    if (turn elem s).pfx.count < 2 then .next ((turn elem s).setIp (turn elem s).startIp)
    else .refused .repInterruptedManyPrefixes :=
  (if_neg hmore).trans ((if_neg (mt beq_iff_eq.mp hreset)).trans (if_pos ((State.due_iff _).mp hdue)))

variable (hdue : ¬ (turn elem s).Due)

include hdue

/-- Nothing is due at the boundary between two elements: RESET comes before the next element, or in it, or the loop goes
on. -/
theorem repeatString_pastBoundary : repeatString elem dst stop (n + 1) s =
    if (turn elem s).pastBoundary.input.reset = .atStart then
      .next ((turn elem s).pastBoundary.setIp (turn elem s).startIp)
    else if (turn elem s).pastBoundary.input.reset = .inInstr then
      .next (((turn elem s).pastBoundary.scramble (dst (turn elem s))).resetNext.setIp (turn elem s).startIp)
    else repeatString elem dst stop n (turn elem s).pastBoundary := by
  refine (if_neg hmore).trans
    ((if_neg (mt beq_iff_eq.mp hreset)).trans ((if_neg (mt (State.due_iff _).mpr hdue)).trans ?_))
  cases hnext : (elem s).decCx.pastBoundary.input.reset <;> simp [turn, hnext]

end

/-! ### A repeated string instruction -/

/-- After a turn that left `t`, CMPS and SCAS are over whatever CX is: ZF differs from the z of REP. -/
def endsAfter (i : Instr) (z : Bool) (t : State) : Bool := endsOnZf i && t.flags.zf != z

section

variable {i : Instr} (hi : i.isStringPrimitive = true) {s : State} {z : Bool}

include hi

theorem exec_withRep_none : exec i (s.withRep none) = .next (elementOf i (s.withRep none)) :=
  (exec_string hi _).trans (State.string_of_rep_none _ rfl _ _ _)

theorem exec_repeated (hrep : s.pfx.rep = some z) :
    exec i s = repeatString (elementOf i) (elementStores i) (endsAfter i z) s.gpr.cx.toNat s := by
  rw [exec_string hi, State.string, hrep]
  rfl

theorem exec_repeated_succ (hrep : s.pfx.rep = some z) (hcx : s.gpr.cx ≠ 0) : exec i s =
    repeatString (elementOf i) (elementStores i) (endsAfter i z) ((turn (elementOf i) s).gpr.cx.toNat + 1) s := by
  have hcount : s.gpr.cx.toNat = (turn (elementOf i) s).gpr.cx.toNat + 1 := by
    rw [(elementOf_isElement hi).turn_cx]
    bv_omega
  rw [exec_repeated hi hrep, hcount]

end

theorem endsAfter_or_cx_iff {i : Instr} {z : Bool} {t : State} : (endsAfter i z t || t.gpr.cx == 0) = true ↔
    t.gpr.cx = 0 ∨ (((∃ w, i = .cmps w) ∨ ∃ w, i = .scas w) ∧ t.flags.zf ≠ z) := by
  rw [← endsOnZf_iff, Bool.or_eq_true, endsAfter, Bool.and_eq_true, bne_iff_ne, beq_iff_eq, or_comm]

theorem State.pastBoundary_of_quiet {s : State} (h : s.Quiet) : s.pastBoundary = s := by
  obtain ⟨-, hinputs, -⟩ := h
  have hin := s.input_usedUp hinputs
  have htail : s.inputs.tail = s.inputs := by rw [hinputs]; rfl
  have hlatch : s.nmiNow = s.nmiPending := by rw [State.nmiNow, hin, Bool.or_false]
  rw [s.pastBoundary_alone (by rw [hin]), htail, hlatch]

end Sys2Proof.Machine

open Sys2Proof Sys2Proof.Machine

/-- Settles O51: one turn of the loop, and the loop that is left is the instruction's own. -/
theorem repUnrolls : Obligations.RepUnrolls := by
  intro s i z hi hrep
  have helem := elementOf_isElement hi
  refine ⟨fun hcx => ?_, fun hcx => ⟨_, exec_withRep_none hi, ?_⟩⟩
  · rw [exec_repeated hi hrep, hcx]
    rfl
  intro t done
  have ht : t = turn (elementOf i) s := helem.turn_of_withRep s
  clear_value t
  subst ht
  have hexec := exec_repeated_succ hi hrep hcx
  refine ⟨fun hdone => ?_, fun hmore hdue hreset hruns => ?_, fun hquiet => ?_⟩
  · rw [hexec, repeatString_last (endsAfter_or_cx_iff.mpr hdone)]
  · have hrep' : (turn (elementOf i) s).pastBoundary.pfx.rep = some z := by
      rwa [State.pastBoundary_pfx, helem.turn_pfx]
    have hnext := repeatString_pastBoundary (dst := elementStores i) (n := (turn (elementOf i) s).gpr.cx.toNat)
      (mt endsAfter_or_cx_iff.mp hmore) (by rwa [helem.turn_input]) (mt (helem.turn_due_iff s).mp hdue)
    rw [hexec, hnext, exec_repeated hi hrep', State.pastBoundary_gpr]
    rcases hruns with hruns | hruns <;> simp [hruns]
  · exact State.pastBoundary_of_quiet ((helem.turn_quiet_iff s).mpr hquiet)
end

section
/-! PROOFS. What stops a repetition between two elements (43_string.md R161), and what the boundary of that step then takes
(60_exceptions.md R234 to R238). -/

namespace Sys2Proof.Machine

/-! ### The boundary of a step -/

theorem State.takeTrap_eq_trapped {s t : State} (htf : t.tfAtStart = s.tfAtStart) (hwaiting : t.waiting = s.waiting) :
    t.takeTrap = s.trapped t := by
  simp [State.takeTrap, State.trapped, htf, hwaiting]

theorem State.pastBoundary_of_no_nmi {s : State} (hnmi : s.nmiNow = false) :
    { s.pastBoundary with nmiPending := false } = s.pastBoundary := by
  rw [← hnmi]
  rfl

section

variable {s : State} (hreset : s.input.reset = .inactive) (hinhibit : s.intInhibit = false)

include hreset hinhibit

theorem State.boundary_eq : s.boundary = s.takeExternal.takeTrap := by
  simp [State.boundary, hreset, hinhibit]

/-- NMI goes before INTR, and the trap comes on top of it. -/
theorem State.boundary_of_nmi (hnmi : s.nmiNow = true) :
    s.boundary = s.trapped ({ s.pastBoundary with nmiPending := false }.interrupt 2 s.ip) := by
  rw [State.boundary_eq hreset hinhibit, State.takeExternal, if_pos hnmi]
  exact State.takeTrap_eq_trapped rfl rfl

variable (hnmi : s.nmiNow = false)

include hnmi

theorem State.boundary_of_intr {k : Byte} (hintr : s.intrNow = some k) :
    s.boundary = s.trapped ({ s.pastBoundary with nmiPending := false }.interrupt k s.ip) := by
  rw [State.boundary_eq hreset hinhibit, State.takeExternal, if_neg (by simp [hnmi]), hintr,
    State.pastBoundary_of_no_nmi hnmi]
  exact State.takeTrap_eq_trapped rfl rfl

theorem State.boundary_of_no_external (hintr : s.intrNow = none) :
    s.boundary = s.trapped { s.pastBoundary with nmiPending := false } := by
  rw [State.boundary_eq hreset hinhibit, State.takeExternal, if_neg (by simp [hnmi]), hintr,
    State.pastBoundary_of_no_nmi hnmi]
  exact State.takeTrap_eq_trapped rfl rfl

end

theorem State.intrNow_eq_none {s : State} (h : s.flags.ifl = false ∨ s.input.intr = none) : s.intrNow = none := by
  rcases h with h | h <;> simp [State.intrNow, h]

/-! ### A repetition stopped after one turn -/

/-- One turn is done and IP is back where the prefixes of the instruction begin (43 R161 corner case 4). -/
def stopped (elem : State → State) (s : State) : State := (turn elem s).setIp s.startIp

section

variable {elem : State → State} (h : IsElement elem) {s : State} (hjust : s.justReset = false)

include h hjust

theorem finishInstr_stopped : finishInstr (.next (stopped elem s)) = .next (stopped elem s).ended.boundary := by
  obtain ⟨g, f, m, c, k, ht⟩ := h.turn_eq s
  have hjust' : (stopped elem s).justReset = false := by rwa [stopped, ht]
  exact finishInstr_next (.inl hjust')

variable (hreset : s.input.reset = .inactive) (hinhibit : s.intInhibit = false)

include hreset hinhibit

theorem finishInstr_stopped_of_nmi (hnmi : s.nmiNow = true) : finishInstr (.next (stopped elem s)) =
    .next (s.trapped
      ({ (stopped elem s).ended.pastBoundary with nmiPending := false }.interrupt 2 s.startIp)) := by
  obtain ⟨g, f, m, c, k, ht⟩ := h.turn_eq s
  rw [finishInstr_stopped h hjust, stopped, ht]
  exact congrArg _ (State.boundary_of_nmi hreset hinhibit hnmi)

theorem finishInstr_stopped_of_intr {t : Byte} (hnmi : s.nmiNow = false) (hintr : s.intrNow = some t) :
    finishInstr (.next (stopped elem s)) =
    .next (s.trapped
      ({ (stopped elem s).ended.pastBoundary with nmiPending := false }.interrupt t s.startIp)) := by
  obtain ⟨g, f, m, c, k, ht⟩ := h.turn_eq s
  rw [finishInstr_stopped h hjust, stopped, ht]
  refine congrArg _ (State.boundary_of_intr ?_ ?_ ?_ ?_)
  exacts [hreset, hinhibit, hnmi, hintr]

theorem finishInstr_stopped_of_no_external (hnmi : s.nmiNow = false) (hintr : s.intrNow = none) :
    finishInstr (.next (stopped elem s)) =
    .next (s.trapped { (stopped elem s).ended.pastBoundary with nmiPending := false }) := by
  obtain ⟨g, f, m, c, k, ht⟩ := h.turn_eq s
  rw [finishInstr_stopped h hjust, stopped, ht]
  exact congrArg _ (State.boundary_of_no_external hreset hinhibit hnmi hintr)

end

/-- The bytes of an element do not depend on the boundary before it, nor on REP. -/
theorem elementStores_pastBoundary (i : Instr) (s : State) :
    elementStores i (s.pastBoundary.withRep none) = elementStores i s := by
  unfold elementStores
  split <;> rfl

/-- RESET in the next element leaves the bytes it stores to open (70_reset_and_hazards.md R260). -/
theorem State.scramble_resetNext_setIp (s : State) (l : List Nat) (v : Word) :
    let r := (s.scramble l).resetNext.setIp v
    s.mem.SameOff r.mem l ∧ r = { s with
      ip := v, mem := r.mem, staleCode := r.staleCode, freeCount := r.freeCount
      inputs := { s.input with reset := .atStart } :: s.inputs.tail } := by
  obtain ⟨m, c, h, hm, -⟩ := s.scramble_spec l
  rw [h]
  exact ⟨hm, rfl⟩

end Sys2Proof.Machine

open Sys2Proof Sys2Proof.Machine

/-- Settles O52: each clause is one way the turn of the loop can go, and the boundary of the step after it. -/
theorem repStopsBetweenElements : Obligations.RepStopsBetweenElements := by
  intro s i z hi hrep e he hzero hone hzf t u
  have helem := elementOf_isElement hi
  obtain rfl : elementOf i (s.withRep none) = e := Host.Outcome.next.inj ((exec_withRep_none hi).symm.trans he)
  have ht : t = turn (elementOf i) s := helem.turn_of_withRep s
  have hu : u = stopped (elementOf i) s := congrArg (State.setIp · s.startIp) ht
  have hmore : ¬ (endsAfter i z t || t.gpr.cx == 0) = true := by
    rw [endsAfter_or_cx_iff]
    rintro (hcx | ⟨hcompares, hne⟩)
    · have hcx' : s.gpr.cx - 1 = 0 := hcx
      exact hone (sub_eq_zero.mp hcx')
    · exact hne (hzf hcompares)
  clear_value u t
  subst ht hu
  have hexec := exec_repeated_succ hi hrep hzero
  have hinput := helem.turn_input s
  have hstart := helem.turn_startIp s
  have hinterrupted (hreset : s.input.reset ≠ .atBoundary) (hdue : s.Due) : exec i s =
      if s.pfx.count < 2 then .next (stopped (elementOf i) s) else .refused .repInterruptedManyPrefixes := by
    rw [hexec, repeatString_of_due hmore (by rwa [hinput]) ((helem.turn_due_iff s).mpr hdue), helem.turn_pfx, hstart]
    rfl
  refine ⟨fun hreset => ?_, fun hreset hdue => ⟨fun hcount => ?_, fun hcount => ?_⟩,
    fun hreset hcount hinhibit hjust => ?_, fun hreset hdue => ?_⟩
  · rw [hexec, repeatString_resetAtBoundary hmore (by rwa [hinput]), hstart]
    rfl
  · rw [hinterrupted hreset hdue, if_pos hcount]
  · rw [hinterrupted hreset hdue, if_neg (by omega)]
  · have hnext (hdue : s.Due) : exec i s = .next (stopped (elementOf i) s) :=
      (hinterrupted (by simp [hreset]) hdue).trans (if_pos hcount)
    refine ⟨fun hnmi => ?_, fun k hpending hedge hifl hintr => ?_, fun hpending hedge hintr htf hwaiting => ?_⟩
    · rw [hnext (hnmi.imp_right .inl)]
      exact finishInstr_stopped_of_nmi helem hjust hreset hinhibit (by simpa [State.nmiNow] using hnmi)
    · rw [hnext (.inr (.inr (.inl ⟨hifl, k, hintr⟩)))]
      exact finishInstr_stopped_of_intr helem hjust hreset hinhibit (by simp [State.nmiNow, hpending, hedge])
        (by simp [State.intrNow, hifl, hintr])
    · rw [hnext (.inr (.inr (.inr htf))), finishInstr_stopped_of_no_external helem hjust hreset hinhibit
        (by simp [State.nmiNow, hpending, hedge]) (State.intrNow_eq_none hintr), State.trapped,
        if_pos ⟨htf, hwaiting⟩]
      rfl
  · have hnext := repeatString_pastBoundary (dst := elementStores i) (n := (turn (elementOf i) s).gpr.cx.toNat) hmore
      (by rwa [hinput]) (mt (helem.turn_due_iff s).mp hdue)
    rw [hstart] at hnext
    refine ⟨fun hbefore => ?_, fun hin => ?_⟩
    · rw [hexec, hnext]
      exact if_pos hbefore
    · have hstores := (storesOf_of_string hi rfl).trans (elementStores_pastBoundary i (turn (elementOf i) s))
      refine ⟨_, hexec.trans (hnext.trans ((if_neg (by simp [hin])).trans (if_pos hin))), ?_⟩
      rw [← hstores]
      exact State.scramble_resetNext_setIp _ _ _
end

section
/-! PROOFS. Repetitions that nothing stops (43_string.md R160 to R162, R165, R166): the loop is as many turns as CX says, and
what REP MOVS, LODS and STOS have done after each of them. -/

namespace Sys2Proof.Machine

/-! ### As many turns as CX says -/

theorem State.input_of_quiet {s : State} (h : s.Quiet) : s.input = ⟨.inactive, false, none, s.testLevel, []⟩ := by
  obtain ⟨-, hinputs, -⟩ := h
  exact s.input_usedUp hinputs

theorem State.not_due_of_quiet {s : State} (h : s.Quiet) : ¬ s.Due := by
  have hin := State.input_of_quiet h
  obtain ⟨hnmi, -, htf⟩ := h
  simp [State.Due, hin, hnmi, htf]

/-- Nothing comes between the elements of a repetition that has a quiet host and does not end on ZF. -/
theorem repeatString_of_quiet {elem : State → State} {dst : State → List Nat} {stop : State → Bool} (h : IsElement elem)
    (hstop : ∀ u, stop u = false) (n : Nat) {s : State} (hquiet : s.Quiet) (hcx : s.gpr.cx.toNat = n) :
    repeatString elem dst stop n s = .next ((turn elem)^[n] s) := by
  induction n generalizing s with
  | zero => rfl
  | succ n ih =>
    have hcx' : (turn elem s).gpr.cx.toNat = n := by
      rw [h.turn_cx]
      bv_omega
    have hquiet' := (h.turn_quiet_iff s).mpr hquiet
    by_cases hlast : (turn elem s).gpr.cx = 0
    · obtain rfl : n = 0 := by rw [← hcx', hlast]; rfl
      exact repeatString_last (by simp [hlast])
    · have hinput := State.input_of_quiet hquiet'
      have hnext := repeatString_pastBoundary (dst := dst) (n := n) (stop := stop)
        (by rw [hstop, Bool.false_or]; exact mt eq_of_beq hlast)
        (by simp [hinput]) (State.not_due_of_quiet hquiet')
      rw [hnext, State.pastBoundary_of_quiet hquiet', hinput]
      exact ih hquiet' hcx'

theorem exec_of_quiet {i : Instr} (hi : i.isStringPrimitive = true) (hzf : endsOnZf i = false) {s : State} {z : Bool}
    (hrep : s.pfx.rep = some z) (hquiet : s.Quiet) :
    exec i s = .next ((turn (elementOf i))^[s.gpr.cx.toNat] s) := by
  rw [exec_repeated hi hrep]
  exact repeatString_of_quiet (elementOf_isElement hi) (fun u => by rw [endsAfter, hzf]; rfl) _ hquiet rfl

/-! ### The elements in order -/

theorem State.along_zero (s : State) (w : Width) (x : Word) : s.along w x 0 = x := by
  simp [State.along]

theorem State.along_succ (s : State) (w : Width) (x : Word) (j : Nat) :
    s.along w x (j + 1) = s.along w x j + s.delta w := by
  rw [s.add_delta, State.along, State.along, Nat.add_mul, Nat.one_mul, BitVec.ofNat_add]
  split
  · exact sub_add_eq_sub_sub ..
  · exact (add_assoc ..).symm

theorem sub_ofNat_succ (x : Word) (j : Nat) : x - BitVec.ofNat 16 (j + 1) = x - BitVec.ofNat 16 j - 1 := by
  rw [BitVec.ofNat_add]
  exact sub_add_eq_sub_sub ..

theorem sub_ofNat_toNat (x : Word) : x - BitVec.ofNat 16 x.toNat = 0 := by
  rw [BitVec.ofNat_toNat, BitVec.setWidth_eq]
  exact sub_self x

theorem sub_ofNat_zero (x : Word) : x - BitVec.ofNat 16 0 = x := BitVec.sub_zero x

/-- Two destination elements of one repetition are the same or share no byte, wherever the offset wraps. -/
theorem State.dstAt_disjoint (s : State) (w : Width) {j k : Nat} (h : s.dstAt w k ≠ s.dstAt w j) :
    ∀ a ∈ (s.dstAt w k).bytes w, a ∉ (s.dstAt w j).bytes w := by
  have hne : s.along w s.gpr.di k ≠ s.along w s.gpr.di j := fun he => h (congrArg (Place.mem s.seg.es) he)
  cases w with
  | byte => simp [State.dstAt, Place.bytes, phys_ne hne]
  | word =>
    have hapart (j k : Nat) : s.along .word s.gpr.di k ≠ s.along .word s.gpr.di j + 1 := by
      simp only [State.along, Width.bits]
      split <;> bv_omega
    have hsucc : s.along .word s.gpr.di k + 1 ≠ s.along .word s.gpr.di j + 1 := fun he => hne (add_right_cancel he)
    simp only [State.dstAt, Place.bytes, List.mem_cons, List.not_mem_nil, or_false, not_or]
    rintro a (rfl | rfl)
    · exact ⟨phys_ne hne, phys_ne (hapart j k)⟩
    · exact ⟨phys_ne (hapart k j).symm, phys_ne hsucc⟩

/-- The bytes of the first `j` destination elements. -/
def State.dstBytes (s : State) (w : Width) (j : Nat) : List Nat := (List.range j).flatMap fun k => (s.dstAt w k).bytes w

theorem State.dstBytes_succ (s : State) (w : Width) (j : Nat) :
    s.dstBytes w (j + 1) = s.dstBytes w j ++ (s.dstAt w j).bytes w := by
  rw [State.dstBytes, List.range_succ, List.flatMap_append, List.flatMap_singleton]
  rfl

/-! ### Turns that store one element after the other -/

/-- The turn after the first `j` stores `v` in the `j`-th destination element, and the prefetch window is where it was. -/
structure State.StoresElement (s : State) (w : Width) (elem : State → State) (j : Nat) (v : BitVec w.bits) : Prop where
  mem : ((turn elem)^[j + 1] s).mem = (((turn elem)^[j] s).write w (s.dstAt w j) v).mem
  code : ((turn elem)^[j + 1] s).staleCode = (((turn elem)^[j] s).write w (s.dstAt w j) v).staleCode
  window : ((turn elem)^[j] s).prefetchWindow = s.prefetchWindow

section

variable {s : State} {w : Width} {elem : State → State} {val : Nat → BitVec w.bits}
  (h : ∀ j, s.StoresElement w elem j (val j))

include h

theorem State.turns_sameOff (j : Nat) : s.mem.SameOff ((turn elem)^[j] s).mem (s.dstBytes w j) := by
  induction j with
  | zero => exact Memory.SameOff.refl _ _
  | succ j ih =>
    rw [(h j).mem, s.dstBytes_succ]
    exact ih.trans (State.write_sameOff _ w _ _)

theorem State.turns_remembers (j : Nat) : s.Remembers ((turn elem)^[j] s) (s.dstBytes w j) := by
  induction j with
  | zero => simp [State.Remembers, State.dstBytes]
  | succ j ih =>
    intro a
    have hwrite := State.write_remembers ((turn elem)^[j] s) w (s.dstAt w j) (val j) a
    rw [(h j).code, hwrite, ih, (h j).window, s.dstBytes_succ, List.mem_append, or_and_right, or_assoc]

theorem State.turns_wf (hs : s.mem.wf = true) (j : Nat) : ((turn elem)^[j] s).mem.wf = true := by
  induction j with
  | zero => exact hs
  | succ j ih =>
    rw [(h j).mem]
    exact State.write_wf _ ih w _ _

/-- After `n` turns each element holds its value, where elements at the same place have the same value. -/
theorem State.turns_read (hs : s.mem.wf = true) {n : Nat}
    (hval : ∀ j < n, ∀ k < n, s.dstAt w k = s.dstAt w j → val k = val j) {k : Nat} (hk : k < n) :
    ((turn elem)^[n] s).read w (s.dstAt w k) = val k := by
  induction n with
  | zero => omega
  | succ n ih =>
    have hlast := State.read_mem_congr (h n).mem w s.seg.es (s.along w s.gpr.di k)
    refine hlast.trans ?_
    by_cases hplace : s.dstAt w k = s.dstAt w n
    · rw [hval n (by omega) k hk hplace]
      exact (congrArg _ hplace).trans (State.read_write_same _ (State.turns_wf h hs n) w _ _)
    · have hkn : k < n := by
        rcases Nat.lt_succ_iff_lt_or_eq.mp hk with hlt | rfl
        · exact hlt
        · exact absurd rfl hplace
      have hother := State.read_mem_of_sameOff (State.write_sameOff ((turn elem)^[n] s) w (s.dstAt w n) (val n))
        (s.dstAt_disjoint w hplace)
      exact hother.trans (ih (fun j hj i hi => hval j (by omega) i (by omega)) hkn)

end

/-! ### REP STOS, REP MOVS, REP LODS -/

/-- After `j` turns CX is lowered by `j`, and the pointers that an element moves are `j` elements on (43 R160, R161). -/
theorem stos_turns (s : State) (w : Width) (j : Nat) : ∃ m c, (turn (stosElement w))^[j] s = { s with
    gpr := { s.gpr with cx := s.gpr.cx - BitVec.ofNat 16 j, di := s.along w s.gpr.di j }, mem := m, staleCode := c } := by
  induction j with
  | zero =>
    rw [s.along_zero, sub_ofNat_zero]
    exact ⟨s.mem, s.staleCode, rfl⟩
  | succ j ih =>
    obtain ⟨m, c, hj⟩ := ih
    rw [Function.iterate_succ_apply', hj, turn, stosElement_eq, s.along_succ, sub_ofNat_succ]
    exact ⟨_, _, rfl⟩

theorem stos_storesElement (s : State) (w : Width) (j : Nat) :
    s.StoresElement w (stosElement w) j (s.read w accPlace) := by
  obtain ⟨m, c, hj⟩ := stos_turns s w j
  constructor <;> simp only [Function.iterate_succ_apply', hj] <;> cases w <;> rfl

theorem movs_turns (s : State) (w : Width) (j : Nat) : ∃ m c, (turn (movsElement w))^[j] s = { s with
    gpr := { s.gpr with
      cx := s.gpr.cx - BitVec.ofNat 16 j, si := s.along w s.gpr.si j, di := s.along w s.gpr.di j }
    mem := m, staleCode := c } := by
  induction j with
  | zero =>
    rw [s.along_zero, s.along_zero, sub_ofNat_zero]
    exact ⟨s.mem, s.staleCode, rfl⟩
  | succ j ih =>
    obtain ⟨m, c, hj⟩ := ih
    rw [Function.iterate_succ_apply', hj, turn, movsElement_eq, s.along_succ, s.along_succ, sub_ofNat_succ]
    exact ⟨_, _, rfl⟩

theorem movs_storesElement (s : State) (w : Width) (j : Nat) :
    s.StoresElement w (movsElement w) j (((turn (movsElement w))^[j] s).read w (s.srcAt w j)) := by
  obtain ⟨m, c, hj⟩ := movs_turns s w j
  constructor <;> simp only [Function.iterate_succ_apply', hj] <;> rfl

/-- Where no destination byte is a source byte, each element is read as it was before the repetition. -/
theorem movs_reads_source {s : State} {w : Width} (hapart : ∀ a ∈ s.dstArea w, a ∉ s.srcArea w) {k : Nat}
    (hk : k < s.gpr.cx.toNat) : ((turn (movsElement w))^[k] s).read w (s.srcAt w k) = s.read w (s.srcAt w k) := by
  refine State.read_mem_of_sameOff (State.turns_sameOff (movs_storesElement s w) k) fun a hsrc hdst => ?_
  obtain ⟨j, hj, hdst⟩ := List.mem_flatMap.mp hdst
  rw [List.mem_range] at hj
  have hdst' : a ∈ s.dstArea w := List.mem_flatMap.mpr ⟨j, List.mem_range.mpr (by omega), hdst⟩
  exact hapart a hdst' (List.mem_flatMap.mpr ⟨k, List.mem_range.mpr hk, hsrc⟩)

/-- Elements at the same destination come from the same source: SI and DI move together. -/
theorem State.srcAt_eq_of_dstAt_eq {s : State} {w : Width} {j k : Nat} (h : s.dstAt w k = s.dstAt w j) :
    s.srcAt w k = s.srcAt w j := by
  obtain ⟨-, hdi⟩ := Place.mem.inj h
  have hsi : s.along w s.gpr.si k = s.along w s.gpr.si j := by
    rw [State.along, State.along] at hdi ⊢
    split at hdi
    · rw [sub_right_inj] at hdi
      rw [hdi]
    · rw [add_right_inj] at hdi
      rw [hdi]
  rw [State.srcAt, State.srcAt, hsi]

theorem lods_turns (s : State) (w : Width) (j : Nat) : ∃ a, (turn (lodsElement w))^[j] s = { s with
    gpr := { s.gpr with ax := a, cx := s.gpr.cx - BitVec.ofNat 16 j, si := s.along w s.gpr.si j } } := by
  induction j with
  | zero =>
    rw [s.along_zero, sub_ofNat_zero]
    exact ⟨s.gpr.ax, rfl⟩
  | succ j ih =>
    obtain ⟨a, hj⟩ := ih
    rw [Function.iterate_succ_apply', hj, turn, lodsElement_eq, s.along_succ, sub_ofNat_succ]
    exact ⟨_, rfl⟩

theorem lods_turns_read (s : State) (w : Width) (j : Nat) :
    ((turn (lodsElement w))^[j + 1] s).read w (.reg .axAl) = s.read w (s.srcAt w j) := by
  obtain ⟨a, hj⟩ := lods_turns s w j
  have hdec (u : State) : u.decCx.read w (.reg .axAl) = u.read w (.reg .axAl) := by cases w <;> rfl
  rw [Function.iterate_succ_apply', turn, hdec, lodsElement_read, hj]
  cases w <;> rfl

theorem lods_turns_ah (s : State) (j : Nat) :
    ((turn (lodsElement .byte))^[j] s).gpr.getByte .spAh = s.gpr.getByte .spAh := by
  induction j with
  | zero => rfl
  | succ j ih =>
    have hdec (u : State) : u.decCx.gpr.getByte .spAh = u.gpr.getByte .spAh := rfl
    rw [Function.iterate_succ_apply', turn, hdec, lodsElement_ah, ih]

end Sys2Proof.Machine

open Sys2Proof Sys2Proof.Machine

/-- Settles O53: nothing stops the loop, so it is CX turns, and each turn does its element. -/
theorem repRunsToTheEnd : Obligations.RepRunsToTheEnd := by
  intro s z w hs hrep hquiet n
  have hcx : s.gpr.cx - BitVec.ofNat 16 n = 0 := sub_ofNat_toNat s.gpr.cx
  have hmovs := movs_storesElement s w
  have hstos := stos_storesElement s w
  refine ⟨⟨_, exec_of_quiet rfl rfl hrep hquiet, ?_, State.turns_sameOff hmovs n, State.turns_remembers hmovs n,
      fun hapart j hj => ?_⟩,
    ⟨_, exec_of_quiet rfl rfl hrep hquiet, ?_, fun hzero => ?_, fun hpos => ?_, ?_⟩,
    ⟨_, exec_of_quiet rfl rfl hrep hquiet, ?_, State.turns_sameOff hstos n, State.turns_remembers hstos n, fun j hj =>
      State.turns_read hstos hs (fun _ _ _ _ _ => rfl) hj⟩⟩
  · obtain ⟨m, c, hn⟩ := movs_turns s w n
    rw [hcx] at hn
    rw [elementOf, hn]
  · have hsource := fun k (hk : k < n) => movs_reads_source hapart hk
    refine (State.turns_read hmovs hs (fun j hj k hk hplace => ?_) hj).trans (hsource j hj)
    rw [hsource k hk, hsource j hj, State.srcAt_eq_of_dstAt_eq hplace]
  · obtain ⟨a, hn⟩ := lods_turns s w n
    rw [hcx] at hn
    rw [elementOf, hn]
  · exact congrArg (fun j => ((turn (lodsElement w))^[j] s).gpr.ax) hzero
  · have hread := lods_turns_read s w (n - 1)
    rwa [Nat.sub_add_cancel (Nat.one_le_iff_ne_zero.mpr hpos)] at hread
  · rintro rfl
    exact lods_turns_ah s n
  · obtain ⟨m, c, hn⟩ := stos_turns s w n
    rw [hcx] at hn
    rw [elementOf, hn]
end

section
/-! PROOFS. Control transfer (44_control_transfer.md): calls and interrupts as pushes and a jump, returns as pops and a
jump, and the conditional transfers. -/

namespace Sys2Proof.Machine

/-! ### Calls -/

/-- A within-segment CALL: one push, then a jump (44 R171, R172). -/
theorem State.push_jump_called (s : State) (hs : s.mem.wf = true) (ip : Word) :
    s.Called ((s.push s.ip).jump ip) [s.ip] s.seg.cs ip :=
  ⟨(s.push_pushed hs s.ip).congr rfl rfl, rfl⟩

/-- An intersegment CALL: CS is pushed before IP (44 R173, R174). -/
theorem State.push2_jumpFar_called (s : State) (hs : s.mem.wf = true) (cs ip : Word) :
    s.Called (((s.push s.seg.cs).push s.ip).jumpFar cs ip) [s.seg.cs, s.ip] cs ip :=
  ⟨(s.push2_pushed hs s.seg.cs s.ip).congr rfl rfl, rfl⟩

/-! ### Returns -/

/-- Two pops raise SP by 4 (20_memory.md R56). -/
theorem State.popped_popped (s : State) : s.popped.popped = s.setSp (s.gpr.sp + 4) :=
  congrArg s.setSp (add_assoc s.gpr.sp 2 2)

/-- Three pops raise SP by 6. -/
theorem State.popped_popped_popped (s : State) : s.popped.popped.popped = s.setSp (s.gpr.sp + 6) := by
  rw [s.popped_popped]
  exact congrArg s.setSp (add_assoc s.gpr.sp 4 2)

/-- An intersegment RET, before an immediate is added to SP (44 R182, R183). -/
theorem State.popped_popped_jumpFar (s : State) : s.popped.popped.jumpFar s.popped.top s.top = { s with
    ip := s.readWord s.seg.ss s.gpr.sp, seg := { s.seg with cs := s.readWord s.seg.ss (s.gpr.sp + 2) }
    gpr := { s.gpr with sp := s.gpr.sp + 4 }, staleCode := [] } := by
  rw [s.popped_popped]
  rfl

/-- The return takes IP, CS and FLAGS from the three words above SS:SP (44 R208). -/
theorem State.interruptReturn_eq (s : State) : s.interruptReturn = { s with
    ip := s.readWord s.seg.ss s.gpr.sp
    seg := { s.seg with cs := s.readWord s.seg.ss (s.gpr.sp + 2) }
    gpr := { s.gpr with sp := s.gpr.sp + 6 }
    staleCode := []
    flags := Flags.ofImage (s.readWord s.seg.ss (s.gpr.sp + 4)) } := by
  rw [State.interruptReturn, s.popped_popped_popped, s.popped_popped]
  rfl

/-! ### The return undoes the interrupt -/

section

variable (s : State) (k : Byte) (ret : Word)

/-- The interrupt sequence lowers SP by 6 and changes no other general register (60_exceptions.md R233). -/
theorem State.interrupt_gpr : (s.interrupt k ret).gpr = { s.gpr with sp := s.gpr.sp - 6 } := by
  have hsp : s.gpr.sp - 2 - 2 - 2 = s.gpr.sp - 6 := by bv_omega
  rw [← hsp]
  rfl

/-- After the interrupt sequence the saved offset, CS and FLAGS lie above SS:SP in the order the return pops them
(60 R233, R240). -/
theorem State.interrupt_frame (hs : s.mem.wf = true) :
    let u := s.interrupt k ret
    u.readWord u.seg.ss u.gpr.sp = ret ∧ u.readWord u.seg.ss (u.gpr.sp + 2) = s.seg.cs ∧
      u.readWord u.seg.ss (u.gpr.sp + 4) = s.flags.image := by
  intro u
  have hwords := (s.interrupt_pushed hs k ret).words
  have hss : u.seg.ss = s.seg.ss := rfl
  have hsp : u.gpr.sp = s.gpr.sp - 6 := congrArg Gpr.sp (s.interrupt_gpr k ret)
  have hcs : s.gpr.sp - 6 + 2 = s.gpr.sp - 4 := by bv_omega
  have hflags : s.gpr.sp - 6 + 4 = s.gpr.sp - 2 := by bv_omega
  rw [hss, hsp, hcs, hflags]
  exact ⟨hwords 2 (by simp), hwords 1 (by simp), hwords 0 (by simp)⟩

/-- The return brings back the registers, the segment registers and the flags from before the interrupt, and IP is the
saved offset. -/
theorem State.interruptReturn_interrupt (hs : s.mem.wf = true) :
    let t := (s.interrupt k ret).interruptReturn
    t.gpr = s.gpr ∧ t.seg = s.seg ∧ t.flags = s.flags ∧ t.ip = ret ∧ t.mem = (s.interrupt k ret).mem := by
  obtain ⟨hret, hcs, hflags⟩ := s.interrupt_frame k ret hs
  rw [State.interruptReturn_eq, hret, hcs, hflags, Flags.ofImage_image, s.interrupt_gpr, BitVec.sub_add_cancel]
  exact ⟨rfl, rfl, rfl, rfl, rfl⟩

end

/-! ### Conditional transfers -/

/-- A conditional transfer whose condition computes `p` (44 R184). -/
theorem State.jumpIf_eq_ite {c : Bool} {p : Prop} [Decidable p] (h : c = true ↔ p) (s : State) (disp : Byte) :
    s.jumpIf c disp = if p then { s with ip := s.ip + disp.signExtend 16, staleCode := [] } else s :=
  if_congr h rfl rfl

/-- The count of LOOP has not run out (44 R201). -/
theorem sub_one_bne_zero_iff (x : Word) : (x - 1 != 0) = true ↔ x ≠ 1 := bne_iff_ne.trans sub_ne_zero

end Sys2Proof.Machine

open Sys2Proof Sys2Proof.Machine

/-- Settles O54: each CALL computes its target, pushes once or twice and jumps. -/
theorem callPushesReturn : Obligations.CallPushesReturn := by
  intro s hs
  have hnear := s.push_jump_called hs
  have hfar := s.push2_jumpFar_called hs
  exact ⟨fun _ => ⟨_, rfl, hnear _⟩, fun _ => ⟨_, rfl, hnear _⟩, fun _ _ => ⟨_, rfl, hfar _ _⟩,
    fun _ => ⟨_, rfl, hfar _ _⟩⟩

/-- Settles O57: each takes the interrupt sequence, INTO only with OF = 1. -/
theorem softwareInterrupts : Obligations.SoftwareInterrupts := by
  intro s hs
  have htaken := s.interrupt_interrupted hs
  exact ⟨fun _ => ⟨_, rfl, htaken _ _⟩, ⟨_, rfl, htaken _ _⟩, fun hof => ⟨_, if_pos hof, htaken _ _⟩,
    fun hof => if_neg (ne_true_of_eq_false hof)⟩

/-- Settles O58: the three words popped are the three the interrupt sequence pushed. -/
theorem iretUndoesInterrupt : Obligations.IretUndoesInterrupt := fun s =>
  ⟨congrArg Host.Outcome.next s.interruptReturn_eq,
    fun k ret hs => ⟨_, rfl, s.interruptReturn_interrupt k ret hs⟩⟩

/-- Settles O55: a JMP is one jump, a RET its pops and one jump. -/
theorem jmpRetTargets : Obligations.JmpRetTargets := by
  intro s
  have hfar := s.popped_popped_jumpFar
  have hsp : s.popped.popped.gpr.sp = s.gpr.sp + 4 := congrArg (·.gpr.sp) s.popped_popped
  refine ⟨fun _ => rfl, fun _ => rfl, fun _ => rfl, fun _ _ => rfl, fun _ => rfl, rfl, fun _ => rfl,
    congrArg Host.Outcome.next hfar, fun d => ?_⟩
  exact congrArg Host.Outcome.next (congrArg₂ (fun t sp => State.setSp t (sp + d)) hfar hsp)

/-- Settles O56: each condition is the one the instruction tests; CX - 1 is 0 exactly where CX was 1. -/
theorem conditionalTransfersTaken : Obligations.ConditionalTransfersTaken := by
  intro s disp f go jump d
  have hjump {c c' : Bool} (h : c = c') :
      (.next (s.jumpIf c disp) : Host.Outcome State Fault Refusal) = .next (jump c') :=
    congrArg Host.Outcome.next (State.jumpIf_eq_ite (h ▸ Iff.rfl) s disp)
  have hless : (f.sf != f.of) = (f.sf ^^ f.of) := Bool.bne_eq_xor ▸ rfl
  have hnotLess : (f.sf == f.of) = !(f.sf ^^ f.of) := by rw [← hless, bne, Bool.not_not]
  have hcx := sub_one_bne_zero_iff s.gpr.cx
  refine ⟨rfl, rfl, rfl, rfl, rfl, rfl, rfl, hjump ?_, rfl, rfl, rfl, rfl, hjump hless, hjump hnotLess, hjump ?_, hjump ?_,
    ?_, ?_, ?_, ?_⟩
  · exact (Bool.not_or ..).symm
  · rw [hless]
  · rw [hnotLess, Bool.not_or]
  · exact congrArg Host.Outcome.next ((s.decCx.jumpIf_eq_ite hcx disp).trans (ite_not ..))
  · have htest : (s.gpr.cx - 1 != 0 && s.flags.zf) = true ↔ s.gpr.cx ≠ 1 ∧ s.flags.zf = true := by
      rw [Bool.and_eq_true, hcx]
    exact congrArg Host.Outcome.next (s.decCx.jumpIf_eq_ite htest disp)
  · have htest : (s.gpr.cx - 1 != 0 && !s.flags.zf) = true ↔ s.gpr.cx ≠ 1 ∧ s.flags.zf = false := by
      rw [Bool.and_eq_true, hcx, Bool.not_eq_true']
    exact congrArg Host.Outcome.next (s.decCx.jumpIf_eq_ite htest disp)
  · exact congrArg Host.Outcome.next (s.jumpIf_eq_ite beq_iff_eq disp)
end

section
/-! PROOFS. The halted machine and the processor control instructions (45_processor_control.md R210 to R221;
60_exceptions.md R234, R236, R238; 70_reset_and_hazards.md R260, R263). -/

namespace Sys2Proof.Machine

/-! ### The halted machine -/

/-- A halted machine fetches nothing, whether RESET comes at the boundary or not (60 R234, 70 R260). -/
theorem step_of_halted {s : State} (hruns : s.Runs) (hs : s.halted = true) : step s = .next s.idle.boundary := by
  rcases hruns with h | h <;> simp only [step, stepOf, h, hs, if_true]

/-- Nothing is begun in a halted machine, so no single-step trap is due (60 R238). -/
theorem State.trapped_idle (s t : State) : s.idle.trapped t = t := if_neg (by simp)

theorem step_of_halted_of_boundary {s t : State} (hreset : s.input.reset = .inactive) (hs : s.halted = true)
    (h : s.idle.boundary = s.idle.trapped t) : step s = .next t := by
  rw [step_of_halted (.inl hreset) hs, h, s.trapped_idle]

/-! ### WAIT -/

theorem exec_wait_of_test_active {s : State} (h : s.input.test = true) : exec .wait s = .next s := by
  rw [exec_wait, if_pos h]

theorem exec_wait_of_test_inactive {s : State} (h : s.input.test = false) :
    exec .wait s = .next { s with ip := s.startIp, waiting := true } := by
  rw [exec_wait, if_neg (by simp [h])]

/-- No trap comes inside a WAIT that has to look again (45 R218, log 11). -/
theorem State.trapped_of_waiting {s : State} (h : s.waiting = true) (t : State) : s.trapped t = t := if_neg (by simp [h])

/-- With nothing pending and the host's records used up, the boundary of a WAIT that has to look again changes nothing. -/
theorem State.boundary_of_waiting {s : State} (hwaiting : s.waiting = true) (hinhibit : s.intInhibit = false)
    (hnmi : s.nmiPending = false) (hinputs : s.inputs = []) : s.boundary = s := by
  have hin := s.input_usedUp hinputs
  have hnow : s.nmiNow = false := by simp [State.nmiNow, hnmi, hin]
  have hintr : s.intrNow = none := State.intrNow_eq_none (.inr (by rw [hin]))
  have htail : s.inputs.tail = s.inputs := by rw [hinputs]; rfl
  rw [State.boundary_of_no_external (by rw [hin]) hinhibit hnow hintr, State.trapped_of_waiting hwaiting,
    s.pastBoundary_alone (by rw [hin]), htail, ← hnmi]

/-- The WAIT at CS:IP has been looked at with TEST inactive: it has begun, and IP is at its first byte again (45 R218). -/
def State.lookedAt (s : State) : State := { s.begun with waiting := true }

/-- The next look begins from what the one before it left. -/
theorem State.lookedAt_lookedAt (s : State) : s.lookedAt.lookedAt = s.lookedAt := rfl

/-- An unfinished WAIT without prefixes has no LOCK to keep and completes no instruction. -/
theorem State.lookedAt_ended (s : State) : s.lookedAt.ended = s.lookedAt := by
  simp [State.lookedAt, State.ended, State.begun, PrefixState.none]

/-- A WAIT at CS:IP with TEST left inactive and nothing else to come (45 R218, 70 R263). -/
theorem step_of_wait {s : State} {rest : List Byte} (h : decode s.codeBytes = .ok (.wait, rest))
    (hfresh : ∀ a ∈ s.codeAddrs (6 - rest.length), a ∉ s.staleCode) (hs : s.halted = false)
    (hnmi : s.nmiPending = false) (hinputs : s.inputs = []) (htest : s.testLevel = false) :
    step s = .next s.lookedAt := by
  have hin := s.input_usedUp hinputs
  have hinactive : s.input.test = false := by rw [hin, htest]
  have hlook : exec .wait { s.begun with ip := s.ip + BitVec.ofNat 16 (6 - rest.length) } = .next s.lookedAt :=
    exec_wait_of_test_inactive hinactive
  have hnow : s.nmiNow = false := by simp [State.nmiNow, hnmi, hin]
  have hboundary : s.lookedAt.boundary = s.lookedAt := State.boundary_of_waiting rfl rfl hnmi hinputs
  obtain ⟨-, hstep⟩ := stepRunsDecoded.1 s (.inl (by rw [hin])) hs
  calc step s
    _ = finishInstr (.next s.lookedAt) := (hstep .wait rest h hfresh rfl).trans (congrArg finishInstr hlook)
    _ = .next s.lookedAt.ended.boundary := finishInstr_next (.inr (.inr hnow))
    _ = .next s.lookedAt := by rw [s.lookedAt_ended, hboundary]

end Sys2Proof.Machine

open Sys2Proof Sys2Proof.Machine

/-- Settles O16: the halted step is the boundary of the idle machine, and no trap follows the external interrupt there. -/
theorem haltedStep : Obligations.HaltedStep := by
  intro s hs i b
  refine ⟨fun hruns => step_of_halted hruns hs, fun hreset => ?_, fun hwrites => ?_⟩
  · have hidle : i.input.reset = .inactive := hreset
    have hinhibit : i.intInhibit = false := rfl
    have hstep {t : State} : i.boundary = i.trapped t → step s = .next t := step_of_halted_of_boundary hreset hs
    refine ⟨fun hnmi => ?_, fun k hpending hedge hifl hintr => ?_, fun hpending hedge hnone => ?_⟩
    · have hnow : i.nmiNow = true := Bool.or_eq_true_iff.mpr hnmi
      exact hstep (State.boundary_of_nmi hidle hinhibit hnow)
    · have hnow : i.nmiNow = false := Bool.or_eq_false_iff.mpr ⟨hpending, hedge⟩
      have htype : i.intrNow = some k := (if_pos hifl).trans hintr
      exact hstep (State.boundary_of_intr hidle hinhibit hnow htype)
    · have hnow : i.nmiNow = false := Bool.or_eq_false_iff.mpr ⟨hpending, hedge⟩
      have hnotype : i.intrNow = none := State.intrNow_eq_none hnone
      exact hstep (State.boundary_of_no_external hidle hinhibit hnow hnotype)
  · exact congrArg (fun t : State => { t with nmiPending := false }) (i.pastBoundary_alone hwrites)

/-- Settles O59: each meaning writes the fields the statement names; the WAIT's second look begins where its first ended. -/
theorem processorControlEffects : Obligations.ProcessorControlEffects := by
  intro s
  refine ⟨rfl, rfl, rfl, rfl, rfl, rfl, rfl, rfl, exec_wait_of_test_active, exec_wait_of_test_inactive,
    fun _ _ _ => rfl, fun _ => rfl, rfl, fun _ => rfl, fun rest h hfresh hs hnmi hinputs htest => ?_⟩
  have hagain : step s.lookedAt = .next s.lookedAt.lookedAt := step_of_wait h hfresh hs hnmi hinputs htest
  exact ⟨step_of_wait h hfresh hs hnmi hinputs htest, hagain.trans (congrArg _ s.lookedAt_lookedAt)⟩
end

section
/-! PROOFS. Interrupts and their recognition (60_exceptions.md R231 to R238): the divide error, and the order in which the
boundary looks at what may interrupt. -/

namespace Sys2Proof.Machine

/-! ### The divide error -/

theorem Width.eq_byte_of_ne_word {w : Width} (h : w ≠ .word) : w = .byte := by
  cases w with
  | byte => rfl
  | word => exact absurd rfl h

/-- DIV and IDIV fail in the width they divide in (41_arithmetic.md R135, R136). -/
theorem exec_divide_of_divideErrorDue {i : Instr} {s : State} (hi : (∃ w rm, i = .div w rm) ∨ ∃ w rm, i = .idiv w rm)
    (hd : divideErrorDue i s = true) :
    ∃ w, exec i s = .next (s.divideFails w) ∧ ((∀ rm, i ≠ .div .word rm ∧ i ≠ .idiv .word rm) → w = .byte) := by
  rcases hi with ⟨w, rm, rfl⟩ | ⟨w, rm, rfl⟩
  · exact ⟨w, if_pos (divideErrorDue_div_iff.mp hd),
      fun hbyte => Width.eq_byte_of_ne_word fun hw => (hbyte rm).1 (hw ▸ rfl)⟩
  · exact ⟨w, if_pos (divideErrorDue_idiv_iff.mp hd),
      fun hbyte => Width.eq_byte_of_ne_word fun hw => (hbyte rm).2 (hw ▸ rfl)⟩

/-- What a divide that fails leaves open before its interrupt is taken; DX only where it divides a double word (60 R231). -/
theorem State.divideFails_eq_interrupt (s : State) (w : Width) : ∃ u : State, s.divideFails w = u.interrupt 0 s.ip ∧
    u = { s with
      gpr := { s.gpr with ax := u.gpr.ax, dx := u.gpr.dx }, flags := u.flags, freeCount := u.freeCount } ∧
    u.flags = { u.flags with df := s.flags.df, ifl := s.flags.ifl, tf := s.flags.tf } ∧
    (w = .byte → u.gpr.dx = s.gpr.dx) := by
  cases w with
  | byte => exact ⟨_, rfl, rfl, rfl, fun _ => rfl⟩
  | word => exact ⟨_, rfl, rfl, rfl, nofun⟩

/-! ### The boundary -/

/-- After STI or a load of a segment register the boundary is passed with nothing recognised (60 R237). -/
theorem State.boundary_of_inhibited {s : State} (hreset : s.input.reset = .inactive) (hinhibit : s.intInhibit = true) :
    s.boundary = s.pastBoundary := by
  simp only [State.boundary, hreset, hinhibit, if_true]

end Sys2Proof.Machine

open Sys2Proof Sys2Proof.Machine

/-- Settles O18: every interrupt is the one shared sequence, so that its rule is the statement. -/
theorem interruptSequenceEffects : Obligations.InterruptSequenceEffects :=
  fun s k ret hs => s.interrupt_interrupted hs k ret

/-- Settles O43: what the divide leaves open is open before interrupt 0 is taken, and memory is as it was. -/
theorem divideErrorTakesInterrupt0 : Obligations.DivideErrorTakesInterrupt0 := by
  refine ⟨rfl, rfl, fun s i hs hi hd => ?_⟩
  obtain ⟨w, hexec, hwidth⟩ := exec_divide_of_divideErrorDue hi hd
  obtain ⟨u, hfails, hu, hflags, hdx⟩ := s.divideFails_eq_interrupt w
  have hwf : u.mem.wf = true := congrArg State.mem hu ▸ hs
  have htaken := u.interrupt_interrupted hwf 0 s.ip
  exact ⟨_, u, hexec.trans (congrArg Host.Outcome.next hfails), htaken, hu, hflags, fun hbyte => hdx (hwidth hbyte)⟩

/-- Settles O17: the boundary looks at NMI, then at INTR with IF = 1, and takes the trap of whichever it comes to. -/
theorem boundaryPriority : Obligations.BoundaryPriority := by
  intro s hreset b
  refine ⟨State.boundary_of_inhibited hreset, fun hinhibit hnmi => ?_, fun k hinhibit hpending hedge hifl hintr => ?_,
    fun hinhibit hpending hedge hnone => ?_, s.pastBoundary_alone⟩
  · have hnow : s.nmiNow = true := Bool.or_eq_true_iff.mpr hnmi
    exact State.boundary_of_nmi hreset hinhibit hnow
  · have hnow : s.nmiNow = false := Bool.or_eq_false_iff.mpr ⟨hpending, hedge⟩
    have htype : s.intrNow = some k := (if_pos hifl).trans hintr
    exact State.boundary_of_intr hreset hinhibit hnow htype
  · have hnow : s.nmiNow = false := Bool.or_eq_false_iff.mpr ⟨hpending, hedge⟩
    exact State.boundary_of_no_external hreset hinhibit hnow (State.intrNow_eq_none hnone)
end

section
/-! PROOFS. RESET at any time (70_reset_and_hazards.md R260; 10_state.md R33): everything that ends in the reset sequence
has what it establishes; what differs is which bytes and ports are open before it. -/

namespace Sys2Proof.Machine

/-! ### The reset sequence -/

theorem State.resetSequence_isReset (s : State) : s.resetSequence.IsReset :=
  ⟨rfl, rfl, rfl, rfl, rfl, rfl, rfl, rfl, rfl, rfl, rfl⟩

theorem State.takeReset_isReset (s : State) : s.takeReset.IsReset := State.resetSequence_isReset _

/-- RESET ends LOCK, so that the writes of the other agents land whatever the prefixes were (20_memory.md R51, R53). -/
theorem State.takeReset_sameOff (s : State) : s.mem.SameOff s.takeReset.mem s.agentBytes := by
  rw [s.takeReset_mem]
  exact State.agentsWrite_sameOff { s with pfx := PrefixState.none }

theorem State.takeReset_portIn (s : State) : s.takeReset.portIn = s.portIn := rfl
theorem State.takeReset_io (s : State) : s.takeReset.io = s.io := rfl
theorem State.takeReset_inputs (s : State) : s.takeReset.inputs = s.inputs.tail := rfl
theorem State.takeReset_testLevel (s : State) : s.takeReset.testLevel = s.testLevel := rfl

/-! ### In a step -/

/-- RESET at the start, or in the step of a machine that is halted and has no instruction to abort. -/
theorem step_of_reset {s : State} (h : s.input.reset = .atStart ∨ (s.input.reset = .inInstr ∧ s.halted = true)) :
    step s = .next s.takeReset := by
  rcases h with hstart | ⟨hin, hhalted⟩
  · simp only [step, stepOf, hstart]
  · simp only [step, stepOf, hin, hhalted, if_true]

/-- RESET in an instruction: its prefixes are executed, the instruction itself is aborted. -/
theorem step_of_resetInInstr {s : State} (hin : s.input.reset = .inInstr) (hs : s.halted = false) :
    step s = runWith abortInstr Config.codeSegmentBytes s.begun := by
  simp only [step, stepOf, hin, hs]
  rfl

/-- An abort is a reset from the state where the bytes stored to are open and the port access was made or was not. -/
theorem State.abort_eq_takeReset (s t : State) (l : List Nat) : ∃ r : State, s.abort t l = r.takeReset ∧
    s.mem.SameOff r.mem l ∧ ((r.portIn = s.portIn ∧ r.io = s.io) ∨ (r.portIn = t.portIn ∧ r.io = t.io)) ∧
    r.inputs = s.inputs ∧ r.testLevel = s.testLevel ∧ r.agentBytes = s.agentBytes := by
  obtain ⟨m, c, hopen, hm, -⟩ := s.scramble_spec l
  rw [State.abort, hopen]
  refine ⟨_, rfl, hm, ?_, rfl, rfl, rfl⟩
  split
  · exact .inr ⟨rfl, rfl⟩
  · exact .inl ⟨rfl, rfl⟩

theorem abortInstr_of_next {i : Instr} {s u : State} (h : exec i { s with pfx := { s.pfx with rep := none } } = .next u) :
    abortInstr i s = .next (s.abort u (storesOf i s)) := by
  simp only [abortInstr, h]

/-! ### At a boundary -/

theorem State.boundary_of_reset {s : State} (h : s.input.reset = .atBoundary) :
    s.boundary = (s.pastBoundary.scramble (s.pushBytes s.wordsDue)).resetSequence := by
  simp only [State.boundary, h]

/-- With LOCK or without, a boundary changes memory only where other agents write it (20 R51, R53). -/
theorem State.pastBoundary_sameOff (s : State) : s.mem.SameOff s.pastBoundary.mem s.agentBytes := by
  rw [s.pastBoundary_mem]
  split
  · exact .refl _ _
  · exact s.agentsWrite_sameOff

theorem Memory.SameOff.mono {m m' : Memory} {l l' : List Nat} (h : m.SameOff m' l) (hl : l ⊆ l') : m.SameOff m' l' :=
  fun a ha => h a fun ha' => ha (hl ha')

/-- Leaving bytes open, then the reset sequence: memory changes at those bytes, the ports and the host's records not. -/
theorem State.scramble_resetSequence (s : State) (l : List Nat) :
    let r := (s.scramble l).resetSequence
    s.mem.SameOff r.mem l ∧ r.portIn = s.portIn ∧ r.io = s.io ∧ r.inputs = s.inputs ∧ r.testLevel = s.testLevel := by
  obtain ⟨m, c, hopen, hm, -⟩ := s.scramble_spec l
  rw [hopen]
  exact ⟨hm, rfl, rfl, rfl, rfl⟩

end Sys2Proof.Machine

open Sys2Proof Sys2Proof.Machine

/-- Settles O14: each place of RESET ends in the reset sequence, after the bytes it leaves open. -/
theorem resetInputResets : Obligations.ResetInputResets := by
  intro s
  refine ⟨fun hreset => ?_, step_of_resetInInstr, fun i u hexec => ?_, fun hreset => ?_⟩
  · exact ⟨_, step_of_reset hreset, s.takeReset_isReset, s.takeReset_sameOff, s.takeReset_portIn,
      s.takeReset_io, s.takeReset_inputs, s.takeReset_testLevel⟩
  · obtain ⟨r, habort, hopen, hports, hinputs, htest, hagents⟩ := s.abort_eq_takeReset u (storesOf i s)
    have hmem := hopen.trans r.takeReset_sameOff
    rw [hagents] at hmem
    exact ⟨_, (abortInstr_of_next hexec).trans (congrArg Host.Outcome.next habort), r.takeReset_isReset, hmem, hports,
      r.takeReset_inputs.trans (congrArg List.tail hinputs), r.takeReset_testLevel.trans htest⟩
  · rw [State.boundary_of_reset hreset]
    obtain ⟨hopen, hportIn, hio, hinputs, htest⟩ := s.pastBoundary.scramble_resetSequence (s.pushBytes s.wordsDue)
    have hmem := (s.pastBoundary_sameOff.trans hopen).mono List.perm_append_comm.subset
    exact ⟨State.resetSequence_isReset _, hmem, hportIn, hio, hinputs, htest⟩
end
